-- ==== Sys2Proof/Word.lean ====
section
/-! DEFINITION. The widths of the values that cross the block's ports (10_state.md R21, R25, R34). -/

namespace Sys2Proof

/-- An 8-bit port or an 8-bit register image. -/
abbrev Byte := BitVec 8

/-- A 16-bit register image (R68) or the temperature word (R70). -/
abbrev Half := BitVec 16

/-- A limit count on its 9-bit port: two's complement, 0.5 °C per count (R21). -/
abbrev Count9 := BitVec 9

end Sys2Proof
end

