-- ==== Sys2Proof/Config.lean ====
section
/-! DEFINITION. The named parameters of 00_scope.md R7 whose value the spec leaves OPEN, and the model's one free value.
Each is an opaque constant: no proof can see what it is, so every claim holds whatever it is. -/

namespace Sys2Proof.Config

/-- `ADDR_TABLE8` (R7, D23): the 27 address codes of the 8-pin package. OPEN in the spec; neither the values nor their
distinctness may be assumed (91_not_in_source.md N1, N2). -/
opaque addrTable8 : Vector Byte 27

/-- `ADDR_TABLE6` (R7): the three codes of the 6-pin package, `ADDR_TABLE6[i] = ADDR_TABLE8[i]`. -/
def addrTable6 : Vector Byte 3 := Vector.ofFn fun i => addrTable8[i.val]

/-- `ADDR_SET` (R7): the 30 defined address codes, the duplicates kept as R91 quotes the source. -/
def addrSet : List Byte := addrTable8.toList ++ addrTable6.toList

/-- `TIMEOUT_W - 1`: `TIMEOUT_W` is a positive integer and nothing else is said of it (R7, D24). -/
opaque timeoutWPred : Nat

/-- `TIMEOUT_W` (R7): the width of the opaque timeout operand, a positive integer. -/
abbrev timeoutW : Nat := timeoutWPred + 1

/-- `IOERR_W` (R7): the width of the opaque IoError payload, a non-negative integer. -/
opaque ioErrW : Nat

/-- FREE VALUE (log entry 6): what the port `rsp.io_err` carries in a response that is not an IoError, where R25 calls it
unspecified; its argument is the model's draw counter. -/
opaque unspecifiedIoErr : Nat → BitVec ioErrW

/-- `DEC_ROUND` (note on D11): which way the decode drops the fraction of a temperature. -/
inductive DecRound where
  | towardZero
  | towardMinusInfinity
  deriving DecidableEq, Repr

end Sys2Proof.Config
end

