-- ==== Sys2Proof/Syntax.lean ====
section
/-! DEFINITION. The requests of the block: the operand record, the raw REQ message, and the eight operations of R61. -/

namespace Sys2Proof

/-- The DeviceConfig record as it stands on the ports (R21): eight fields, every bit pattern of each can be presented. -/
structure DeviceConfig where
  address : Byte
  hysteresis : Count9
  overtemperatureThreshold : Count9
  idleTimeout : Byte
  faultQueueLength : Byte
  alertPolarity : Byte
  alertMode : Byte
  operatingMode : Byte
  deriving DecidableEq, Repr

/-- The raw REQ message (R34, R60, R62 to R64): the 3-bit `op` and the operand ports of the three formats. The fields are
separate ports, not a packed word (R62); an operation reads the ports of its own format only. -/
structure ReqPorts where
  op : BitVec 3
  /-- format C: the DeviceConfig record -/
  cfg : DeviceConfig
  /-- format B: `raw.msb` -/
  rawMsb : Byte
  /-- format B: `raw.lsb` -/
  rawLsb : Byte
  /-- format R: `rd.address` -/
  rdAddress : Byte
  /-- format R: `rd.timeout` -/
  rdTimeout : BitVec Config.timeoutW
  deriving DecidableEq, Repr

/-- The closed set of eight operations (R3, R61), each with the operands of its format. -/
inductive Instr where
  | validate (cfg : DeviceConfig)
  | encCfg (cfg : DeviceConfig)
  | encHyst (cfg : DeviceConfig)
  | encOs (cfg : DeviceConfig)
  | encIdle (cfg : DeviceConfig)
  | decTemp (msb lsb : Byte)
  | configure (cfg : DeviceConfig)
  | readTemp (address : Byte) (timeout : BitVec Config.timeoutW)
  deriving DecidableEq, Repr

end Sys2Proof
end

