-- ==== Sys2Proof/WellFormed.lean ====
section
/-! DEFINITION. Which operand values R73 calls legal. An ill-formed request can still be presented and still runs: every
format-C operation then ends in ConfigError (R73, R110); formats B and R have no illegal operand (R23, R24). -/

namespace Sys2Proof

/-- `cfg.address` is one of the given address codes (R73, R91). -/
def DeviceConfig.addressLegal (addrs : List Byte) (c : DeviceConfig) : Bool := addrs.contains c.address

/-- `cfg.operatingMode` is 0x00 or 0x01 (R73). -/
def DeviceConfig.operatingModeLegal (c : DeviceConfig) : Bool := c.operatingMode == 0x00#8 || c.operatingMode == 0x01#8

/-- `cfg.alertMode` is 0x00 or 0x01 (R73). -/
def DeviceConfig.alertModeLegal (c : DeviceConfig) : Bool := c.alertMode == 0x00#8 || c.alertMode == 0x01#8

/-- `cfg.alertPolarity` is 0x00 or 0x01 (R73). -/
def DeviceConfig.alertPolarityLegal (c : DeviceConfig) : Bool := c.alertPolarity == 0x00#8 || c.alertPolarity == 0x01#8

/-- `cfg.faultQueueLength` is 0x01, 0x02, 0x04 or 0x06 (R73). -/
def DeviceConfig.faultQueueLegal (c : DeviceConfig) : Bool :=
  c.faultQueueLength == 0x01#8 || c.faultQueueLength == 0x02#8 || c.faultQueueLength == 0x04#8 || c.faultQueueLength == 0x06#8

/-- All five checked fields of the record are legal, for a given table of address codes (R73). -/
def DeviceConfig.legalIn (addrs : List Byte) (c : DeviceConfig) : Bool :=
  c.addressLegal addrs && c.operatingModeLegal && c.alertModeLegal && c.alertPolarityLegal && c.faultQueueLegal

/-- The record is legal for this hardware's own address codes. -/
def DeviceConfig.legal (c : DeviceConfig) : Bool := c.legalIn Config.addrSet

/-- Every operand of the request is legal (R73), for a given table of address codes. -/
def Instr.wellFormedIn (addrs : List Byte) : Instr → Bool
  | .validate c => c.legalIn addrs
  | .encCfg c => c.legalIn addrs
  | .encHyst c => c.legalIn addrs
  | .encOs c => c.legalIn addrs
  | .encIdle c => c.legalIn addrs
  | .decTemp _ _ => true
  | .configure c => c.legalIn addrs
  | .readTemp _ _ => true

/-- Every operand of the request is legal (R73). -/
def Instr.wellFormed (i : Instr) : Bool := i.wellFormedIn Config.addrSet

end Sys2Proof
end

