-- ==== Sys2Proof/Decode.lean ====
section
/-! DEFINITION. From the raw REQ message to the operation it names and back (R60 to R64, R72). -/

namespace Sys2Proof

/-- The operation a REQ message names: `op` alone determines it and its operand format (R60, R61). All eight op codes are
assigned, so this decoder has no rejection to name: "total with no invalid verdict" (R72). -/
def decode (m : ReqPorts) : Instr :=
  if m.op = 0b000#3 then .validate m.cfg
  else if m.op = 0b001#3 then .encCfg m.cfg
  else if m.op = 0b010#3 then .encHyst m.cfg
  else if m.op = 0b011#3 then .encOs m.cfg
  else if m.op = 0b100#3 then .encIdle m.cfg
  else if m.op = 0b101#3 then .decTemp m.rawMsb m.rawLsb
  else if m.op = 0b110#3 then .configure m.cfg
  else .readTemp m.rdAddress m.rdTimeout

/-- The op code of each operation (R61, D2). -/
def opCode : Instr → BitVec 3
  | .validate _ => 0b000#3
  | .encCfg _ => 0b001#3
  | .encHyst _ => 0b010#3
  | .encOs _ => 0b011#3
  | .encIdle _ => 0b100#3
  | .decTemp _ _ => 0b101#3
  | .configure _ => 0b110#3
  | .readTemp _ _ => 0b111#3

/-- A DeviceConfig with every port at zero. -/
def zeroConfig : DeviceConfig :=
  { address := 0, hysteresis := 0, overtemperatureThreshold := 0, idleTimeout := 0, faultQueueLength := 0,
    alertPolarity := 0, alertMode := 0, operatingMode := 0 }

/-- A REQ message that carries only an op code: every operand port at zero (log entry 10). -/
def bareRequest (op : BitVec 3) : ReqPorts :=
  { op := op, cfg := zeroConfig, rawMsb := 0, rawLsb := 0, rdAddress := 0, rdTimeout := 0 }

/-- The REQ message that presents an operation. The ports of the other formats, which no operation of this format reads,
are put at zero (log entry 10). -/
def encode (i : Instr) : ReqPorts :=
  match i with
  | .validate c => { bareRequest (opCode i) with cfg := c }
  | .encCfg c => { bareRequest (opCode i) with cfg := c }
  | .encHyst c => { bareRequest (opCode i) with cfg := c }
  | .encOs c => { bareRequest (opCode i) with cfg := c }
  | .encIdle c => { bareRequest (opCode i) with cfg := c }
  | .decTemp msb lsb => { bareRequest (opCode i) with rawMsb := msb, rawLsb := lsb }
  | .configure c => { bareRequest (opCode i) with cfg := c }
  | .readTemp a t => { bareRequest (opCode i) with rdAddress := a, rdTimeout := t }

/-- The REQ message of an opcode-table word: the table gives a row three bits, the `op` field, and the operand ports no
bits; the word's bits above those `nbits` hold nothing (log entry 10). -/
def requestOfWord (nbits w : Nat) : ReqPorts := bareRequest (BitVec.ofNat 3 (w % 2 ^ nbits))

/-- What the decoder reads from an opcode-table word. It never answers none: no op code is unassigned (R72). -/
def decodeTableWord (nbits w : Nat) : Option Instr := some (decode (requestOfWord nbits w))

end Sys2Proof
end

