-- ==== Sys2Proof/Machine/State.lean ====
section
/-! DEFINITION. The messages of the four channels (R34), the sequencer record (R27), the state, and the reasons a step can
stop. -/

namespace Sys2Proof.Machine

/-- The members of `operatingMode`'s enumeration (R21). -/
inductive OperatingMode where
  | normal
  | shutdown
  deriving DecidableEq, Repr

/-- The members of `alertMode`'s enumeration (R21). -/
inductive AlertMode where
  | comparator
  | interrupt
  deriving DecidableEq, Repr

/-- The members of `alertPolarity`'s enumeration (R21). -/
inductive AlertPolarity where
  | activeLow
  | activeHigh
  deriving DecidableEq, Repr

/-- The members of `faultQueueLength`'s enumeration: 1, 2, 4 or 6 consecutive faults (R21). -/
inductive FaultQueueLength where
  | one
  | two
  | four
  | six
  deriving DecidableEq, Repr

/-- A record that has passed the validator: the captured copy of R26, its enumerated fields as members of their
enumerations. Only such a record reaches an encoder (R110), so no image exists for an illegal field (U1). -/
structure ValidConfig where
  address : Byte
  hysteresis : Count9
  overtemperatureThreshold : Count9
  idleTimeout : Byte
  faultQueueLength : FaultQueueLength
  alertPolarity : AlertPolarity
  alertMode : AlertMode
  operatingMode : OperatingMode
  deriving DecidableEq, Repr

/-- The five checked fields, in the order of R96; ConfigError names one of them (R151). -/
inductive Field where
  | address
  | operatingMode
  | alertMode
  | alertPolarity
  | faultQueueLength
  deriving DecidableEq, Repr

/-- What the validator answers: the record, or the field it names and all five check results (R90, R96). -/
inductive Verdict where
  | ok (v : ValidConfig)
  | violation (field : Field) (viol : BitVec 5)
  deriving DecidableEq, Repr

/-- The result an Ok response carries (R25, R61); a result the operation does not have is absent, not zero. -/
inductive Result where
  | unit
  | data8 (b : Byte)
  | data16 (h : Half)
  deriving DecidableEq, Repr

/-- The RSP message as an abstract value: one of three shapes (R25, R150). -/
inductive Rsp where
  | ok (r : Result)
  | configError (field : Field) (viol : BitVec 5)
  | ioError (e : BitVec Config.ioErrW)
  deriving DecidableEq, Repr

/-- The concrete fields of the RSP message (R25, D9). A field that carries no value is absent. -/
structure RspPorts where
  status : BitVec 2
  errField : BitVec 3
  viol : BitVec 5
  ioErr : BitVec Config.ioErrW
  data8 : Option Byte
  data16 : Option Half
  deriving DecidableEq, Repr

/-- The TREQ message: one byte written (R42), or two bytes read (R43). -/
inductive TReq where
  | write (dev reg data : Byte)
  | read (dev reg : Byte) (timeout : BitVec Config.timeoutW)
  deriving DecidableEq, Repr

/-- The concrete fields of the TREQ message (R34): `t_wdata` for writes only, `t_timeout` for reads only. -/
structure TReqPorts where
  tKind : BitVec 1
  tDev : Byte
  tReg : Byte
  tWdata : Option Byte
  tTimeout : Option (BitVec Config.timeoutW)
  deriving DecidableEq, Repr

/-- The TRSP message (R34). `err` is read on a failure only, `rdata0` and `rdata1` on a successful read only; what they hold
otherwise is any value and is never read. `rdata0` is the byte received first. -/
structure TRsp where
  ok : Bool
  err : BitVec Config.ioErrW
  rdata0 : Byte
  rdata1 : Byte
  deriving DecidableEq, Repr

/-- The three events the block reacts to, and no others (R160): a request on REQ, an answer on TRSP, the reset input (R170). -/
inductive Stimulus where
  | request (m : ReqPorts)
  | answer (r : TRsp)
  | reset
  deriving DecidableEq, Repr

/-- The sequencer record `seq` (R27). -/
inductive Seq where
  /-- no operation in flight -/
  | idle
  /-- CONFIGURE in flight: write `k` has been issued and its answer is awaited -/
  | cfgWait (cfg : ValidConfig) (k : Fin 6)
  /-- READ_TEMP in flight: the read has been issued and its answer is awaited -/
  | rdWait
  deriving DecidableEq, Repr

/-- The state of one block instance. `seq` is all the block keeps (R20, R27, R29). `rsp` and `treq` are the output channels
(R34): the message the latest step transferred, if it transferred one; a message is transferred whole and at once (log entry
4). `inputs` and `draws` are the MODEL'S OWN: the events that arrive from outside, in the order in which they arrive (log
entry 3), and the count of the responses given so far, which indexes the free value of log entry 6. -/
structure State where
  seq : Seq
  rsp : Option Rsp
  treq : Option TReq
  inputs : List Stimulus
  draws : Nat
  deriving DecidableEq, Repr

/-- Right after reset (R35): `seq` idle, no operands held, no message on RSP or TREQ. The model's own fields start with no
event and at draw 0 (DESIGN CHOICE, log entries 3 and 6). -/
def State.reset : State := { seq := .idle, rsp := none, treq := none, inputs := [], draws := 0 }

/-- Why the block has no step. Neither is an error of an operation: R150's two error kinds are ordinary responses. -/
inductive Fault where
  /-- Raised by `step`, when an operation waits for the transport and no event is left to arrive: the block has no enabled
  step and stays as it is for ever (R49, U10). SAFE: nothing is claimed to happen. -/
  | noAnswer
  /-- Raised by `step`, when the block is idle and no event is left to arrive: a block that is given nothing does nothing
  (R160). SAFE: nothing is claimed to happen. -/
  | noRequest
  deriving DecidableEq, Repr

/-- Why an instruction would have no meaning. -/
inductive Refusal where
  /-- Would be raised by an arm of `exec` that has no meaning yet; no arm of this model is one. SAFE: the machine stops. -/
  | notModelled (mnemonic : String)
  deriving DecidableEq, Repr

end Sys2Proof.Machine
end

