-- ==== Sys2Proof/Machine/Tables.lean ====
section
/-! DEFINITION. The constants of R8 and the configuration tables that have a value in the spec (R7, R33): no operation
writes them. -/

namespace Sys2Proof.Machine

/-- `REG_TEMP` (R8, R41). -/
def regTemp : Byte := 0x00#8
/-- `REG_CONF` (R8, R41). -/
def regConf : Byte := 0x01#8
/-- `REG_THYST` (R8, R41). -/
def regThyst : Byte := 0x02#8
/-- `REG_TOS` (R8, R41). -/
def regTos : Byte := 0x03#8
/-- `REG_TIDLE` (R8, R41). -/
def regTidle : Byte := 0x04#8

/-- `CONF_MASK` (R8). -/
def confMask : Byte := 0x1F#8
/-- `IDLE_MASK` (R8). -/
def idleMask : Byte := 0x1F#8
/-- `LIMIT_SHIFT` (R8). -/
def limitShift : Nat := 7
/-- `TEMP_SHIFT` (R8). -/
def tempShift : Nat := 5
/-- `TEMP_RES` (R8) is one degree over this many counts: 0.125 °C per count. -/
def countsPerDegree : Int := 8

/-- The type of the parameter `FQ_CODE` (R7, U13): a 2-bit code for each length. Every definition that reads the table takes
it as its argument, so that another assignment is put in without touching a rule (R67). R7's constraint, that the table is
injective, is a premise of the statements that need it. -/
abbrev FqTable := FaultQueueLength → BitVec 2

/-- The default of `FQ_CODE` (R67, decision D7): ascending lengths take ascending codes. It is the table `exec` and `step` run
with. -/
def fqCode : FqTable
  | .one => 0b00#2
  | .two => 0b01#2
  | .four => 0b10#2
  | .six => 0b11#2

/-- `DEC_ROUND` (note on D11): the spec's default. -/
def decRound : Config.DecRound := .towardZero

end Sys2Proof.Machine
end

