-- ==== Sys2Proof/Machine/Operands.lean ====
section
/-! DEFINITION. Operand forms: the enumerated ports (R21, R22), the assembly of the register images (R66 to R71), the
temperature word (R70), and the concrete fields of the messages (R25, R34, R151). -/

namespace Sys2Proof.Machine

/-- The member of `operatingMode`'s enumeration a port value stands for (R22, D4). -/
def readOperatingMode (b : Byte) : Option OperatingMode :=
  if b = 0x00#8 then some .normal else if b = 0x01#8 then some .shutdown else none

/-- The member of `alertMode`'s enumeration a port value stands for (R22, D4). -/
def readAlertMode (b : Byte) : Option AlertMode :=
  if b = 0x00#8 then some .comparator else if b = 0x01#8 then some .interrupt else none

/-- The member of `alertPolarity`'s enumeration a port value stands for (R22, D4). -/
def readAlertPolarity (b : Byte) : Option AlertPolarity :=
  if b = 0x00#8 then some .activeLow else if b = 0x01#8 then some .activeHigh else none

/-- The member of `faultQueueLength`'s enumeration a port value stands for: the port carries the count itself (R21). -/
def readFaultQueueLength (b : Byte) : Option FaultQueueLength :=
  if b = 0x01#8 then some .one
  else if b = 0x02#8 then some .two
  else if b = 0x04#8 then some .four
  else if b = 0x06#8 then some .six
  else none

/-- Bit SD of the configuration byte (R66). -/
def sdBit : OperatingMode → BitVec 1
  | .normal => 0#1
  | .shutdown => 1#1

/-- Bit MODE of the configuration byte (R66). -/
def modeBit : AlertMode → BitVec 1
  | .comparator => 0#1
  | .interrupt => 1#1

/-- Bit POL of the configuration byte (R66). -/
def polBit : AlertPolarity → BitVec 1
  | .activeLow => 0#1
  | .activeHigh => 1#1

/-- `enc_cfg` (R101) for a given table `FQ_CODE`: the configuration register image of R66, under a true bitwise AND with the
mask. -/
def configImageIn (fq : FqTable) (v : ValidConfig) : Byte :=
  (0b000#3 ++ fq v.faultQueueLength ++ polBit v.alertPolarity ++ modeBit v.alertMode ++ sdBit v.operatingMode) &&& confMask

/-- `enc_cfg` (R101) with the default table. -/
def configImage (v : ValidConfig) : Byte := configImageIn fqCode v

/-- `enc_limit` (R104): the limit register image of R68, the count shifted left at width 16. -/
def limitImage (d : Count9) : Half := d.setWidth 16 <<< limitShift

/-- `msb_of` (R104): the byte of a 16-bit image that is sent first (R44). -/
def msbOf (h : Half) : Byte := h.extractLsb' 8 8

/-- `lsb_of` (R104): the byte of a 16-bit image that is sent second (R44). -/
def lsbOf (h : Half) : Byte := h.extractLsb' 0 8

/-- `enc_idle` (R108): the idle register image of R69, under a true bitwise AND with the mask. -/
def idleImage (t : Byte) : Byte := t &&& idleMask

/-- `W` (R70, R121): the two raw bytes of the temperature register, most significant first. -/
def tempWord (msb lsb : Byte) : Half := msb ++ lsb

/-- `N` (R121, D11): the 11-bit native reading as a signed count, −1024 to 1023. -/
def nativeCount (msb lsb : Byte) : Int := (BitVec.extractLsb' tempShift 11 (tempWord msb lsb)).toInt

/-- `to_s8` (R11). -/
def toS8 (i : Int) : Byte := BitVec.ofInt 8 i

/-- `err_field` (R151): one more than the field's check number. -/
def fieldCode : Field → BitVec 3
  | .address => 1#3
  | .operatingMode => 2#3
  | .alertMode => 3#3
  | .alertPolarity => 4#3
  | .faultQueueLength => 5#3

/-- The concrete RSP fields of a response (R25, D9): `err_field` and `viol` are 0 and the results absent where R25 says so.
`io_err` outside an IoError is unspecified (R25), so the caller of this function supplies it. -/
def rspPorts (unspecified : BitVec Config.ioErrW) : Rsp → RspPorts
  | .ok .unit => { status := 0#2, errField := 0#3, viol := 0#5, ioErr := unspecified, data8 := none, data16 := none }
  | .ok (.data8 b) => { status := 0#2, errField := 0#3, viol := 0#5, ioErr := unspecified, data8 := some b, data16 := none }
  | .ok (.data16 h) => { status := 0#2, errField := 0#3, viol := 0#5, ioErr := unspecified, data8 := none, data16 := some h }
  | .configError f v => { status := 1#2, errField := fieldCode f, viol := v, ioErr := unspecified, data8 := none, data16 := none }
  | .ioError e => { status := 2#2, errField := 0#3, viol := 0#5, ioErr := e, data8 := none, data16 := none }

/-- The concrete TREQ fields of a transport request (R34, R42, R43). -/
def treqPorts : TReq → TReqPorts
  | .write dev reg b => { tKind := 0#1, tDev := dev, tReg := reg, tWdata := some b, tTimeout := none }
  | .read dev reg t => { tKind := 1#1, tDev := dev, tReg := reg, tWdata := none, tTimeout := some t }

/-- The RSP message of the latest step as it stands on the ports; the unspecified `io_err` is the free value of log entry 6. -/
def State.rspOnPorts (s : State) : Option RspPorts := s.rsp.map (rspPorts (Config.unspecifiedIoErr s.draws))

/-- The TREQ message of the latest step as it stands on the ports. -/
def State.treqOnPorts (s : State) : Option TReqPorts := s.treq.map treqPorts

end Sys2Proof.Machine
end

