-- ==== Sys2Proof/Machine/Flags.lean ====
section
/-! DEFINITION. The block has no status flags (R30). The one vector of condition bits it computes is `viol`, the five check
results of the validator (R90, R96), which leaves the block in a ConfigError response and is kept nowhere. -/

namespace Sys2Proof.Machine

/-- `viol[4:0]` (R90, R96): 1 = the check failed; each bit depends on its own field only. `addrs` is the table of address
codes. -/
def violIn (addrs : List Byte) (c : DeviceConfig) : BitVec 5 :=
  BitVec.ofBool (readFaultQueueLength c.faultQueueLength).isNone
    ++ BitVec.ofBool (readAlertPolarity c.alertPolarity).isNone
    ++ BitVec.ofBool (readAlertMode c.alertMode).isNone
    ++ BitVec.ofBool (readOperatingMode c.operatingMode).isNone
    ++ BitVec.ofBool (!addrs.contains c.address)

/-- `first_field(viol)` (R96, D8): the failed check with the lowest bit number. It is asked only of a `viol` that is not
zero, so the last branch is bit 4's. -/
def firstField (viol : BitVec 5) : Field :=
  if viol.getLsbD 0 then .address
  else if viol.getLsbD 1 then .operatingMode
  else if viol.getLsbD 2 then .alertMode
  else if viol.getLsbD 3 then .alertPolarity
  else .faultQueueLength

end Sys2Proof.Machine
end

