-- ==== Sys2Proof/Machine/Ops.lean ====
section
/-! DEFINITION. The operations every meaning is written over: accepting a request, giving a response, raising the two errors,
emitting a transport request, reset, and taking the next event. -/

namespace Sys2Proof.Machine

/-- Nothing is transferred on either output channel. -/
def State.quiet (s : State) : State := { s with rsp := none, treq := none }

/-- The operation ends with one response (R25): `seq` is idle and the captured operands are dropped (R26). The draw counter
moves on, so that each response has an unspecified `io_err` of its own (log entry 6). -/
def State.respond (r : Rsp) (s : State) : State :=
  { s with seq := .idle, rsp := some r, treq := none, draws := s.draws + 1 }

/-- `raise ConfigError(f, v)` (R153, R157): no handler and no saved context, the response is all there is. -/
def State.raiseConfigError (f : Field) (viol : BitVec 5) (s : State) : State := s.respond (.configError f viol)

/-- `raise IoError(e)` (R152, R154, R157): the transport's payload unchanged, no further request of the operation. -/
def State.raiseIoError (e : BitVec Config.ioErrW) (s : State) : State := s.respond (.ioError e)

/-- One transport request leaves the block and its answer is awaited in `next` (R51). -/
def State.emit (q : TReq) (next : Seq) (s : State) : State := { s with seq := next, rsp := none, treq := some q }

/-- The captured operands, the sequencer and both output channels go to their reset values; no response is given (R35, R170).
Events still to arrive are not the block's, and the draw counter goes on. -/
def State.resetBlock (s : State) : State := { s with seq := State.reset.seq, rsp := State.reset.rsp, treq := State.reset.treq }

/-- A request is accepted only when the block is idle (R28, D6). Presented to a busy block it is not accepted and not
queued: the operation in flight goes on waiting (log entry 5). -/
def State.whenIdle (k : State → State) (s : State) : State :=
  match s.seq with
  | .idle => k s
  | .cfgWait _ _ => s.quiet
  | .rdWait => s.quiet

/-- The next event to arrive, and the state with it taken. -/
def State.nextStimulus (s : State) : Option (Stimulus × State) :=
  match s.inputs with
  | [] => none
  | e :: rest => some (e, { s with inputs := rest })

/-- Why a block with no event to come has no step (R49, R160). -/
def State.stuckReason (s : State) : Fault :=
  match s.seq with
  | .idle => .noRequest
  | .cfgWait _ _ => .noAnswer
  | .rdWait => .noAnswer

end Sys2Proof.Machine
end

