-- ==== Sys2Proof/Machine/Decoder.lean ====
section
/-! DEFINITION. The temperature decoder (42_decoder.md). -/

namespace Sys2Proof.Machine

/-- The temperature `N / 8` brought to a whole number of degrees, for either value of `DEC_ROUND` (R121, note on D11). -/
def decTempRounded (round : Config.DecRound) (msb lsb : Byte) : Int :=
  match round with
  | .towardZero => (nativeCount msb lsb).tdiv countsPerDegree
  | .towardMinusInfinity => (nativeCount msb lsb).fdiv countsPerDegree

/-- `dec_temp` (R121): the spec's reading truncates toward zero. -/
def decTemp (msb lsb : Byte) : Int := decTempRounded decRound msb lsb

/-- The Ok response of a decoded temperature (R120, R143). -/
def tempResponse (msb lsb : Byte) : Rsp := .ok (.data8 (toS8 (decTemp msb lsb)))

/-- DEC_TEMP (R120): no validation, always Ok. -/
def execDecTemp (msb lsb : Byte) (s : State) : Host.Outcome State Fault Refusal :=
  .next (s.whenIdle (State.respond (tempResponse msb lsb)))

end Sys2Proof.Machine
end

