-- ==== Sys2Proof/Machine/Validator.lean ====
section
/-! DEFINITION. The Configuration Validator (40_validator.md): the function `validate`, the gate every format-C operation
passes first, and the operation VALIDATE. -/

namespace Sys2Proof.Machine

/-- The record with its enumerated fields read, if all five checks pass. -/
def admitIn (addrs : List Byte) (c : DeviceConfig) : Option ValidConfig :=
  match addrs.contains c.address, readOperatingMode c.operatingMode, readAlertMode c.alertMode,
      readAlertPolarity c.alertPolarity, readFaultQueueLength c.faultQueueLength with
  | true, some om, some am, some ap, some fq =>
    some { address := c.address, hysteresis := c.hysteresis, overtemperatureThreshold := c.overtemperatureThreshold,
           idleTimeout := c.idleTimeout, faultQueueLength := fq, alertPolarity := ap, alertMode := am, operatingMode := om }
  | _, _, _, _, _ => none

/-- `validate(cfg)` (R90) for a given table of address codes: exactly the five checks of R91 to R95, nothing else (R97). -/
def validateIn (addrs : List Byte) (c : DeviceConfig) : Verdict :=
  match admitIn addrs c with
  | some v => .ok v
  | none => .violation (firstField (violIn addrs c)) (violIn addrs c)

/-- `validate(cfg)` (R90) against `ADDR_SET` (R91). -/
def validate (c : DeviceConfig) : Verdict := validateIn Config.addrSet c

/-- The gate (R110, R131): the whole record is validated first; a record that fails ends the operation with that
ConfigError, and only a record that passes goes on to `k`. -/
def State.gated (c : DeviceConfig) (k : ValidConfig → State → State) (s : State) : State :=
  match validate c with
  | .ok v => k v s
  | .violation f viol => s.raiseConfigError f viol

/-- VALIDATE (R90). -/
def execValidate (c : DeviceConfig) (s : State) : Host.Outcome State Fault Refusal :=
  .next (s.whenIdle (State.gated c fun _ => State.respond (.ok .unit)))

end Sys2Proof.Machine
end

