-- ==== Sys2Proof/Machine/Encoders.lean ====
section
/-! DEFINITION. The four encoders (41_encoders.md): each is gated by the validator (R110) and answers one register image. -/

namespace Sys2Proof.Machine

/-- ENC_CFG (R100, R101) for a given table `FQ_CODE`. -/
def execEncCfgIn (fq : FqTable) (c : DeviceConfig) (s : State) : Host.Outcome State Fault Refusal :=
  .next (s.whenIdle (State.gated c fun v => State.respond (.ok (.data8 (configImageIn fq v)))))

/-- ENC_CFG (R100, R101) with the default table. -/
def execEncCfg (c : DeviceConfig) (s : State) : Host.Outcome State Fault Refusal := execEncCfgIn fqCode c s

/-- ENC_HYST (R103, R104). -/
def execEncHyst (c : DeviceConfig) (s : State) : Host.Outcome State Fault Refusal :=
  .next (s.whenIdle (State.gated c fun v => State.respond (.ok (.data16 (limitImage v.hysteresis)))))

/-- ENC_OS (R106, R104). -/
def execEncOs (c : DeviceConfig) (s : State) : Host.Outcome State Fault Refusal :=
  .next (s.whenIdle (State.gated c fun v => State.respond (.ok (.data16 (limitImage v.overtemperatureThreshold)))))

/-- ENC_IDLE (R107, R108). -/
def execEncIdle (c : DeviceConfig) (s : State) : Host.Outcome State Fault Refusal :=
  .next (s.whenIdle (State.gated c fun v => State.respond (.ok (.data8 (idleImage v.idleTimeout)))))

end Sys2Proof.Machine
end

