-- ==== Sys2Proof/Machine/Sequences.lean ====
section
/-! DEFINITION. The two operations that drive the transport, and what an answer of the transport does (43_sequences.md). -/

namespace Sys2Proof.Machine

/-- The six writes of CONFIGURE in their fixed order (R132) for a given table `FQ_CODE`: the data bytes and the device address
are functions of the captured record alone (R136). -/
def configWriteIn (fq : FqTable) (v : ValidConfig) (k : Fin 6) : TReq :=
  match k with
  | 0 => .write v.address regConf (configImageIn fq v)
  | 1 => .write v.address regThyst (msbOf (limitImage v.hysteresis))
  | 2 => .write v.address regThyst (lsbOf (limitImage v.hysteresis))
  | 3 => .write v.address regTos (msbOf (limitImage v.overtemperatureThreshold))
  | 4 => .write v.address regTos (lsbOf (limitImage v.overtemperatureThreshold))
  | 5 => .write v.address regTidle (idleImage v.idleTimeout)

/-- The six writes of CONFIGURE (R132) with the default table. -/
def configWrite (v : ValidConfig) (k : Fin 6) : TReq := configWriteIn fqCode v k

/-- The write after write `k`, if there is one (R27, R133). -/
def nextWrite (k : Fin 6) : Option (Fin 6) :=
  match k with
  | 0 => some 1
  | 1 => some 2
  | 2 => some 3
  | 3 => some 4
  | 4 => some 5
  | 5 => none

/-- Write `k` of a CONFIGURE leaves the block (R42, R133). -/
def State.issueWrite (fq : FqTable) (v : ValidConfig) (k : Fin 6) (s : State) : State :=
  s.emit (configWriteIn fq v k) (.cfgWait v k)

/-- CONFIGURE (R130, R131, R133) for a given table `FQ_CODE`: a valid record is captured and write 0 issued in the accepting
step; an invalid one ends in ConfigError and no request is issued. -/
def execConfigureIn (fq : FqTable) (c : DeviceConfig) (s : State) : Host.Outcome State Fault Refusal :=
  .next (s.whenIdle (State.gated c fun v => State.issueWrite fq v 0))

/-- CONFIGURE (R130, R131, R133) with the default table. -/
def execConfigure (c : DeviceConfig) (s : State) : Host.Outcome State Fault Refusal := execConfigureIn fqCode c s

/-- READ_TEMP (R140 to R143): the address is not validated, and address and timeout go to the transport as given. -/
def execReadTemp (address : Byte) (timeout : BitVec Config.timeoutW) (s : State) : Host.Outcome State Fault Refusal :=
  .next (s.whenIdle (State.emit (.read address regTemp timeout) .rdWait))

/-- An answer of the transport (R133, R134, R143, R144), for a given table `FQ_CODE`. A block that is idle awaits none and
discards it (R170). -/
def State.takeAnswerIn (fq : FqTable) (r : TRsp) (s : State) : State :=
  match s.seq with
  | .idle => s.quiet
  | .cfgWait v k =>
    if r.ok then
      match nextWrite k with
      | some k' => s.issueWrite fq v k'
      | none => s.respond (.ok .unit)
    else s.raiseIoError r.err
  | .rdWait => if r.ok then s.respond (tempResponse r.rdata0 r.rdata1) else s.raiseIoError r.err

/-- An answer of the transport, with the default table. -/
def State.takeAnswer (r : TRsp) (s : State) : State := s.takeAnswerIn fqCode r

end Sys2Proof.Machine
end

