-- ==== Sys2Proof/Machine/Dispatch.lean ====
section
/-! DEFINITION. One arm per operation of R61. -/

namespace Sys2Proof.Machine

def exec (i : Instr) (s : State) : Host.Outcome State Fault Refusal :=
  match i with
  | .validate cfg => Sys2Proof.Machine.execValidate cfg s
  | .encCfg cfg => Sys2Proof.Machine.execEncCfg cfg s
  | .encHyst cfg => Sys2Proof.Machine.execEncHyst cfg s
  | .encOs cfg => Sys2Proof.Machine.execEncOs cfg s
  | .encIdle cfg => Sys2Proof.Machine.execEncIdle cfg s
  | .decTemp msb lsb => Sys2Proof.Machine.execDecTemp msb lsb s
  | .configure cfg => Sys2Proof.Machine.execConfigure cfg s
  | .readTemp address timeout => Sys2Proof.Machine.execReadTemp address timeout s

end Sys2Proof.Machine
end

