-- ==== Sys2Proof/Machine/Step.lean ====
section
/-! DEFINITION. One step: the next event from outside arrives and the block reacts to it (R133, R143, R160, R170, R184). -/

namespace Sys2Proof.Machine

/-- One event is one step: a pure operation is answered in the step that accepts it, CONFIGURE and READ_TEMP take one step
for each transport exchange (R184). Where no event is left the block has no step (R49). -/
def step (s : State) : Host.Outcome State Fault Refusal :=
  match s.nextStimulus with
  | none => .fault s.stuckReason
  | some (.request m, t) => exec (decode m) t
  | some (.answer r, t) => .next (t.takeAnswer r)
  | some (.reset, t) => .next t.resetBlock

/-- The state in which the very next step accepts the request of an opcode-table word: the caller presents it before every
other event to come, and the block is idle, as it must be to accept one (R28; log entry 9). -/
def State.withFetchWord (s : State) (nbits w : Nat) : State :=
  { s with seq := .idle, inputs := .request (requestOfWord nbits w) :: s.inputs }

end Sys2Proof.Machine
end

