-- ==== Sys2Proof/Safety.lean ====
section
/-! DEFINITION. The words claims are written in: what a step answers, the invariant of a block, and what is seen from outside
while one operation runs. -/

namespace Sys2Proof.Machine

/-- The answer is a next state in which the operation has ended with response `r`, nothing is asked of the transport, and
`rest` is still to arrive. This is the whole of the block's state but the model's own draw counter. -/
def Responds (o : Host.Outcome State Fault Refusal) (rest : List Stimulus) (r : Rsp) : Prop :=
  ∃ t : State, o = .next t ∧ t.seq = .idle ∧ t.rsp = some r ∧ t.treq = none ∧ t.inputs = rest

/-- The answer is a next state in which request `q` has left for the transport, its answer is awaited in `waiting`, no
response is given, and `rest` is still to arrive. -/
def Issues (o : Host.Outcome State Fault Refusal) (rest : List Stimulus) (q : TReq) (waiting : Seq) : Prop :=
  ∃ t : State, o = .next t ∧ t.seq = waiting ∧ t.rsp = none ∧ t.treq = some q ∧ t.inputs = rest

/-- The answer is a next state with the sequencer at `q`, no message on either output channel, and `rest` still to arrive. -/
def Silent (o : Host.Outcome State Fault Refusal) (rest : List Stimulus) (q : Seq) : Prop :=
  ∃ t : State, o = .next t ∧ t.seq = q ∧ t.rsp = none ∧ t.treq = none ∧ t.inputs = rest

/-- The bit of `viol` that holds a field's check (R151). -/
def checkBit : Field → Nat
  | .address => 0
  | .operatingMode => 1
  | .alertMode => 2
  | .alertPolarity => 3
  | .faultQueueLength => 4

/-- `f` is the failed check with the lowest bit number (R96). -/
def NamesFirst (f : Field) (viol : BitVec 5) : Prop :=
  viol.getLsbD (checkBit f) = true ∧ ∀ i < checkBit f, viol.getLsbD i = false

/-- The invariant of a block: a record in flight has an address of `ADDR_SET`; a response leaves the block idle with nothing
asked of the transport; a request that has just left is the one `seq` says is awaited; a ConfigError names its first
failed check. -/
def State.Inv (s : State) : Prop :=
  (∀ v k, s.seq = .cfgWait v k → v.address ∈ Config.addrSet) ∧
  (s.rsp ≠ none → s.seq = .idle ∧ s.treq = none) ∧
  (∀ q, s.treq = some q →
    (∃ v k, s.seq = .cfgWait v k ∧ q = configWrite v k) ∨ (s.seq = .rdWait ∧ ∃ a t, q = .read a regTemp t)) ∧
  (∀ f viol, s.rsp = some (.configError f viol) → NamesFirst f viol)

/-- What is seen from outside in at most `n` steps, up to and with the first response: the transport requests in the order
in which they leave, and that response, if there was one. -/
def observe : Nat → State → List TReq × Option Rsp
  | 0, _ => ([], none)
  | n + 1, s =>
    match step s with
    | .next t =>
      match t.rsp with
      | some r => (t.treq.toList, some r)
      | none => (t.treq.toList ++ (observe n t).1, (observe n t).2)
    | .fault _ => ([], none)
    | .refused _ => ([], none)

/-- The six writes of a CONFIGURE (R132), as one list. -/
def configWrites (v : ValidConfig) : List TReq := List.ofFn (configWrite v)

/-- The answers among the events to come, in their order. -/
def answersOf (es : List Stimulus) : List TRsp :=
  es.filterMap fun e => match e with | .answer r => some r | .request _ => none | .reset => none

/-- How many answers are Ok before the first that is not. -/
def leadingOks (as : List TRsp) : Nat := (as.takeWhile fun r => r.ok).length

/-- `trunc0` of R11: a rational brought to the integer nearest to zero-ward. -/
def trunc0 (q : ℚ) : Int := if 0 ≤ q then ⌊q⌋ else ⌈q⌉

end Sys2Proof.Machine
end

