-- ==== Sys2Proof/Certificates/Slice0/Obligations.lean ====
section
/-! DEFINITION. The statements for the provers. `Responds`, `Issues` and `Silent` (Safety.lean) each give the whole next
state but the model's own draw counter, so each is also a frame: what a statement does not name is unchanged or absent. -/

open Sys2Proof Sys2Proof.Machine

/-! ## Reset, the invariant, and the step -/

/-- R35, R170 (the spec's own decision D15): after reset `seq` is idle, no operand is held, and no message is on RSP or
TREQ. -/
def Obligations.ResetIsIdleWithNoMessage : Prop :=
  State.reset.seq = .idle ∧ State.reset.rsp = none ∧ State.reset.treq = none

/-- The invariant holds right after reset. -/
def Obligations.ResetMeetsTheInvariant : Prop := State.reset.Inv

/-- From every state that meets the invariant, every step gives a state that meets it (R27, R29, R96, R132, R142, R153,
R154). The state shape and the field a ConfigError names are the spec's decisions D5 and D8. -/
def Obligations.StepKeepsTheInvariant : Prop := ∀ s t : State, s.Inv → step s = .next t → t.Inv

/-- A request that arrives is decoded and run by `exec`, at the state with that request taken (R60, R61). -/
def Obligations.StepRunsThePresentedRequest : Prop :=
  ∀ (s : State) (m : ReqPorts) (rest : List Stimulus),
    s.inputs = .request m :: rest → step s = exec (decode m) { s with inputs := rest }

/-- The presented REQ message of an operation decodes to that operation, every operand at every value its ports admit (R60
to R64; op codes and ports are the spec's decisions D1 to D3, the zeros on unread ports log entry 10). -/
def Obligations.DecodeInvertsEncode : Prop := ∀ i : Instr, decode (encode i) = i

/-- `op` alone determines the operation (R60, R72) and an operation reads the ports of its own format only (R62 to R64):
presenting the decoded operation again gives the same op code and the same ports of that format, and two messages that
agree there decode alike. The formats are the spec's decisions D1 and D2. -/
def Obligations.DecodeReadsOpAndItsOwnFormat : Prop :=
  (∀ m : ReqPorts, (encode (decode m)).op = m.op ∧
    (m.op ≠ 5#3 → m.op ≠ 7#3 → (encode (decode m)).cfg = m.cfg) ∧
    (m.op = 5#3 → (encode (decode m)).rawMsb = m.rawMsb ∧ (encode (decode m)).rawLsb = m.rawLsb) ∧
    (m.op = 7#3 → (encode (decode m)).rdAddress = m.rdAddress ∧ (encode (decode m)).rdTimeout = m.rdTimeout)) ∧
  (∀ m m' : ReqPorts, m.op = m'.op →
    (m.op ≠ 5#3 → m.op ≠ 7#3 → m.cfg = m'.cfg) →
    (m.op = 5#3 → m.rawMsb = m'.rawMsb ∧ m.rawLsb = m'.rawLsb) →
    (m.op = 7#3 → m.rdAddress = m'.rdAddress ∧ m.rdTimeout = m'.rdTimeout) → decode m = decode m')

/-- The eight op codes of R61 (the spec's own numbering, D2), as the opcode table's words. That a table word carries every
operand port at zero is the MODEL's design choice (log entry 10), no rule of the spec. -/
def Obligations.OpCodeWordsDecode : Prop :=
  decodeTableWord 8 0b000 = some (.validate zeroConfig) ∧
  decodeTableWord 8 0b001 = some (.encCfg zeroConfig) ∧
  decodeTableWord 8 0b010 = some (.encHyst zeroConfig) ∧
  decodeTableWord 8 0b011 = some (.encOs zeroConfig) ∧
  decodeTableWord 8 0b100 = some (.encIdle zeroConfig) ∧
  decodeTableWord 8 0b101 = some (.decTemp 0 0) ∧
  decodeTableWord 8 0b110 = some (.configure zeroConfig) ∧
  decodeTableWord 8 0b111 = some (.readTemp 0 0)

/-- A step answers a next state exactly when an event is left to arrive (the block never halts on an error, R159), and no
operation is refused (R150, R162). -/
def Obligations.StepStopsOnlyForWantOfAnEvent : Prop :=
  ∀ s : State, (∀ r, step s ≠ .refused r) ∧ ((∃ t, step s = .next t) ↔ s.inputs ≠ [])

/-- R49, R180: an operation whose transport never answers has no step, and is never shown as completed. The list of events
that ends is the model's way to say that nothing arrives any more (log entry 3). -/
def Obligations.UnansweredOperationIsStuck : Prop :=
  ∀ s : State, s.inputs = [] → s.seq ≠ .idle → step s = .fault .noAnswer

/-- R28, R49: a busy block accepts no request, pure ones included. The operation in flight goes on as it was and neither
channel carries anything. That the request is not kept for later is the spec's decision D6 and log entry 5. -/
def Obligations.BusyBlockAcceptsNoRequest : Prop :=
  ∀ (i : Instr) (s : State), s.seq ≠ .idle → Silent (exec i s) s.inputs s.seq

/-- R170 (the spec's own decision D15): reset ends whatever is in flight, with no response and no transport request; an
answer that arrives afterwards finds the block idle and is discarded. -/
def Obligations.ResetAbandonsTheOperation : Prop :=
  (∀ (s : State) (rest : List Stimulus), s.inputs = .reset :: rest → Silent (step s) rest .idle) ∧
  (∀ (s : State) (r : TRsp) (rest : List Stimulus), s.seq = .idle → s.inputs = .answer r :: rest →
    Silent (step s) rest .idle)

/-! ## The validator -/

/-- R90: VALIDATE answers Ok, with no result and no transport request, for every record whose five checked fields are
legal. The raw values that `legal` takes for the two-valued fields are the spec's decision D4. -/
def Obligations.ValidateAnswersOkOnLegalRecords : Prop :=
  ∀ (c : DeviceConfig) (s : State), s.seq = .idle → c.legal = true →
    Responds (exec (.validate c) s) s.inputs (.ok .unit)

/-- R73, R90, R96, R110, R131: for a record with an illegal checked field, each of the six format-C operations ends with the
same ConfigError, which reports all five checks and names the first that failed; no image and no transport request. Raw
values, naming order and gate are the spec's decisions D4, D8, D10. -/
def Obligations.FormatCOperationsRejectIllegalRecords : Prop :=
  ∀ (c : DeviceConfig) (s : State), s.seq = .idle → c.legal = false →
    ∃ f viol, NamesFirst f viol ∧
      viol.getLsbD 0 = !c.addressLegal Config.addrSet ∧ viol.getLsbD 1 = !c.operatingModeLegal ∧
      viol.getLsbD 2 = !c.alertModeLegal ∧ viol.getLsbD 3 = !c.alertPolarityLegal ∧ viol.getLsbD 4 = !c.faultQueueLegal ∧
      ∀ i ∈ [Instr.validate c, .encCfg c, .encHyst c, .encOs c, .encIdle c, .configure c],
        Responds (exec i s) s.inputs (.configError f viol)

/-- R91: a record whose other checked fields are legal passes exactly when its address is one of the 30 address codes, else
it is rejected with an error that names the address; the 6-pin codes are the first three 8-pin codes; at most 27 bytes
pass and at least 229 fail. Nothing is assumed of the codes (log entry 1); the other fields' raw values are D4. -/
def Obligations.AddressCheckIsMembershipOfTheCodes : Prop :=
  (∀ (c : DeviceConfig) (s : State), s.seq = .idle →
    c.operatingModeLegal = true → c.alertModeLegal = true → c.alertPolarityLegal = true → c.faultQueueLegal = true →
    (((∃ i : Fin 27, Config.addrTable8[i] = c.address) ∨ (∃ i : Fin 3, Config.addrTable6[i] = c.address)) →
      Responds (exec (.validate c) s) s.inputs (.ok .unit)) ∧
    (¬ ((∃ i : Fin 27, Config.addrTable8[i] = c.address) ∨ (∃ i : Fin 3, Config.addrTable6[i] = c.address)) →
      ∃ viol, Responds (exec (.validate c) s) s.inputs (.configError .address viol))) ∧
  (∀ i : Fin 3, Config.addrTable6[i] = Config.addrTable8[i.val]) ∧
  Config.addrSet.toFinset.card ≤ 27 ∧ 229 ≤ (Finset.univ.filter fun a : Byte => a ∉ Config.addrSet).card

/-- R92 to R95: in a record whose other checked fields are legal, the named field passes exactly at its members, else
VALIDATE names that field and reports that check alone. The members 0x00 and 0x01 are the spec's decision D4, the `viol`
vector beside the named field its decision D8. -/
def Obligations.EnumeratedChecksPassExactlyAtTheirMembers : Prop :=
  ∀ (c : DeviceConfig) (s : State) (b : Byte), s.seq = .idle → c.legal = true →
    (if b = 0x00#8 ∨ b = 0x01#8 then Responds (exec (.validate { c with operatingMode := b }) s) s.inputs (.ok .unit)
      else Responds (exec (.validate { c with operatingMode := b }) s) s.inputs (.configError .operatingMode 0b00010#5)) ∧
    (if b = 0x00#8 ∨ b = 0x01#8 then Responds (exec (.validate { c with alertMode := b }) s) s.inputs (.ok .unit)
      else Responds (exec (.validate { c with alertMode := b }) s) s.inputs (.configError .alertMode 0b00100#5)) ∧
    (if b = 0x00#8 ∨ b = 0x01#8 then Responds (exec (.validate { c with alertPolarity := b }) s) s.inputs (.ok .unit)
      else Responds (exec (.validate { c with alertPolarity := b }) s) s.inputs (.configError .alertPolarity 0b01000#5)) ∧
    (if b = 0x01#8 ∨ b = 0x02#8 ∨ b = 0x04#8 ∨ b = 0x06#8 then
      Responds (exec (.validate { c with faultQueueLength := b }) s) s.inputs (.ok .unit)
      else Responds (exec (.validate { c with faultQueueLength := b }) s) s.inputs (.configError .faultQueueLength 0b10000#5))

/-- R62, R97, R100, R103, R106, R107: a field that a pure format-C operation does not read has no effect on its answer, the
whole next state included; the hysteresis may lie above the threshold. -/
def Obligations.UnreadFieldsHaveNoEffect : Prop :=
  ∀ (c : DeviceConfig) (h o : Count9) (t : Byte) (s : State),
    exec (.validate { c with hysteresis := h, overtemperatureThreshold := o, idleTimeout := t }) s = exec (.validate c) s ∧
    exec (.encCfg { c with hysteresis := h, overtemperatureThreshold := o, idleTimeout := t }) s = exec (.encCfg c) s ∧
    exec (.encHyst { c with overtemperatureThreshold := o, idleTimeout := t }) s = exec (.encHyst c) s ∧
    exec (.encOs { c with hysteresis := h, idleTimeout := t }) s = exec (.encOs c) s ∧
    exec (.encIdle { c with hysteresis := h, overtemperatureThreshold := o }) s = exec (.encIdle c) s

/-! ## The encoders -/

/-- R101, for every table `FQ_CODE` (R7: a parameter): for a record that passes validation ENC_CFG answers the packed byte
under a true bitwise AND with 0x1F, and its number is the sum of R101 modulo 32. The operation of `exec` is ENC_CFG at the
table `fqCode`, whose codes this statement does not use. -/
def Obligations.EncCfgPacksAndMasks : Prop :=
  ∀ (c : DeviceConfig) (v : ValidConfig) (s : State), s.seq = .idle → validate c = .ok v →
    ∃ q, readFaultQueueLength c.faultQueueLength = some q ∧
      let sd := BitVec.extractLsb' 0 1 c.operatingMode
      let mode := BitVec.extractLsb' 0 1 c.alertMode
      let pol := BitVec.extractLsb' 0 1 c.alertPolarity
      let image : FqTable → Byte := fun fq => (0b000#3 ++ fq q ++ pol ++ mode ++ sd) &&& 0x1F#8
      Responds (exec (.encCfg c) s) s.inputs (.ok (.data8 (image fqCode))) ∧
      ∀ fq : FqTable, Responds (execEncCfgIn fq c s) s.inputs (.ok (.data8 (image fq))) ∧
        (image fq).toNat = ((fq q).toNat * 8 + pol.toNat * 4 + mode.toNat * 2 + sd.toNat) % 32

/-- R66, R67, R102: for every legal record ENC_CFG answers a byte whose bits 7:5 are zero, whose bits 0, 1, 2 are the three
two-valued fields and whose bits 4:3 are 0, 1, 2, 3 for the lengths 1, 2, 4, 6. Raw values and fault-queue codes are the
spec's decisions D4 and D7. -/
def Obligations.EncCfgAnswersTheConfigurationByte : Prop :=
  ∀ (c : DeviceConfig) (s : State), s.seq = .idle → c.legal = true →
    ∃ b : Byte, Responds (exec (.encCfg c) s) s.inputs (.ok (.data8 b)) ∧
      BitVec.extractLsb' 5 3 b = 0#3 ∧
      (b.getLsbD 0 = true ↔ c.operatingMode = 0x01#8) ∧
      (b.getLsbD 1 = true ↔ c.alertMode = 0x01#8) ∧
      (b.getLsbD 2 = true ↔ c.alertPolarity = 0x01#8) ∧
      (BitVec.extractLsb' 3 2 b = 0b00#2 ↔ c.faultQueueLength = 0x01#8) ∧
      (BitVec.extractLsb' 3 2 b = 0b01#2 ↔ c.faultQueueLength = 0x02#8) ∧
      (BitVec.extractLsb' 3 2 b = 0b10#2 ↔ c.faultQueueLength = 0x04#8) ∧
      (BitVec.extractLsb' 3 2 b = 0b11#2 ↔ c.faultQueueLength = 0x06#8)

/-- R102 (c), for every table `FQ_CODE` that R7 allows, that is every injective one: the configuration image takes exactly
the bytes 0x00 to 0x1F, each from one combination of the four fields. The default table (the spec's decision D7) is one of
them. -/
def Obligations.ConfigurationImageIsABijection : Prop :=
  Function.Injective fqCode ∧
  ∀ fq : FqTable, Function.Injective fq →
    (∀ b : Byte, b.toNat < 32 ↔ ∃ v, configImageIn fq v = b) ∧
    (∀ v w : ValidConfig, configImageIn fq v = configImageIn fq w →
      v.faultQueueLength = w.faultQueueLength ∧ v.alertPolarity = w.alertPolarity ∧ v.alertMode = w.alertMode ∧
        v.operatingMode = w.operatingMode)

/-- R68: for a record that passes validation ENC_HYST and ENC_OS answer the image of their field, and CONFIGURE sends the two
bytes of each image to addresses 0x02 and 0x03; bits 15:7 of an image are the field, its bits 6:0 zero; its MSB byte is
`D[8:1]`, its LSB byte `D[0]` over seven zeros, so 0x00 or 0x80. -/
def Obligations.LimitImageIsTheFieldInBits15To7 : Prop :=
  (∀ (c : DeviceConfig) (v : ValidConfig) (s : State), s.seq = .idle → validate c = .ok v →
    Responds (exec (.encHyst c) s) s.inputs (.ok (.data16 (limitImage c.hysteresis))) ∧
    Responds (exec (.encOs c) s) s.inputs (.ok (.data16 (limitImage c.overtemperatureThreshold))) ∧
    configWrite v 1 = .write c.address 0x02#8 (msbOf (limitImage c.hysteresis)) ∧
    configWrite v 2 = .write c.address 0x02#8 (lsbOf (limitImage c.hysteresis)) ∧
    configWrite v 3 = .write c.address 0x03#8 (msbOf (limitImage c.overtemperatureThreshold)) ∧
    configWrite v 4 = .write c.address 0x03#8 (lsbOf (limitImage c.overtemperatureThreshold))) ∧
  (∀ d : Count9, limitImage d = (d ++ 0#7 : Half) ∧ (∀ i < 9, (limitImage d).getLsbD (7 + i) = d.getLsbD i) ∧
    (∀ i < 7, (limitImage d).getLsbD i = false) ∧
    msbOf (limitImage d) = BitVec.extractLsb' 1 8 d ∧ lsbOf (limitImage d) = (BitVec.extractLsb' 0 1 d ++ 0#7 : Byte) ∧
    (lsbOf (limitImage d) = 0x00#8 ∨ lsbOf (limitImage d) = 0x80#8))

/-- R104, R105: a limit image is 128 times its signed count, the encoding is injective and its image is the 512 values with
bits 6:0 zero; the LSB byte is 0x00 for even counts and 0x80 for odd ones. -/
def Obligations.LimitImageIs128TimesTheCount : Prop :=
  (∀ d : Count9, (limitImage d).toInt = 128 * d.toInt ∧ BitVec.extractLsb' 7 9 (limitImage d) = d ∧
    lsbOf (limitImage d) = (if 2 ∣ d.toInt then 0x00#8 else 0x80#8)) ∧
  (∀ h : Half, BitVec.extractLsb' 0 7 h = 0#7 ↔ ∃ d, limitImage d = h)

/-- R107, R108: for a record that passes validation ENC_IDLE answers the idle field under a true bitwise AND with 0x1F, which
is its low five bits, its number modulo 32. -/
def Obligations.EncIdleMasksToFiveBits : Prop :=
  ∀ (c : DeviceConfig) (v : ValidConfig) (s : State), s.seq = .idle → validate c = .ok v →
    Responds (exec (.encIdle c) s) s.inputs (.ok (.data8 (c.idleTimeout &&& 0x1F#8))) ∧
    c.idleTimeout &&& 0x1F#8 = (0b000#3 ++ BitVec.extractLsb' 0 5 c.idleTimeout : Byte) ∧
    (c.idleTimeout &&& 0x1F#8).toNat = c.idleTimeout.toNat % 32

/-- R109: eight inputs map to each of the 32 idle images, the image is the identity up to 0x1F, and taking it twice is the
same as once. -/
def Obligations.IdleImageIsEightToOne : Prop :=
  (∀ b : Byte, b.toNat < 32 → (Finset.univ.filter fun t : Byte => idleImage t = b).card = 8) ∧
  (∀ t : Byte, t.toNat < 32 → idleImage t = t) ∧ (∀ t : Byte, idleImage (idleImage t) = idleImage t)

/-! ## The decoder -/

/-- R120, R121: DEC_TEMP always answers Ok with the temperature as a signed byte: the 11-bit two's-complement reading at bits
15:5, times 0.125, truncated toward zero, a number from −128 to 127. Signedness and truncation are the spec's decision
D11. -/
def Obligations.DecTempTruncatesTowardZero : Prop :=
  ∀ (msb lsb : Byte) (s : State), s.seq = .idle →
    ∃ b : Byte, Responds (exec (.decTemp msb lsb) s) s.inputs (.ok (.data8 b)) ∧
      b.toInt = trunc0 (((BitVec.extractLsb' 5 11 (msb ++ lsb : Half)).toInt : ℚ) * (1 / 8))

/-- R123: the integer form of the decode, over all operand pairs. The correction belongs to truncation toward zero of a
signed count, the spec's decision D11 (log entry 13). -/
def Obligations.DecTempIsMsbPlusACorrection : Prop :=
  ∀ msb lsb : Byte, decTemp msb lsb =
    msb.toInt + (if msb.getLsbD 7 = true ∧ BitVec.extractLsb' 5 3 lsb ≠ 0#3 then 1 else 0)

/-- R124 (b) to (d): the range of the decode, which counts give its extremes and zero, that it is monotonic, and its odd
symmetry. Rests on D11. -/
def Obligations.DecTempRangeOrderAndSymmetry : Prop :=
  (∀ msb lsb : Byte, (-128 ≤ decTemp msb lsb ∧ decTemp msb lsb ≤ 127) ∧
    (decTemp msb lsb = 127 ↔ 1016 ≤ nativeCount msb lsb) ∧ (decTemp msb lsb = -128 ↔ nativeCount msb lsb = -1024) ∧
    (decTemp msb lsb = 0 ↔ -7 ≤ nativeCount msb lsb ∧ nativeCount msb lsb ≤ 7)) ∧
  (∀ m l m' l' : Byte, nativeCount m l ≤ nativeCount m' l' → decTemp m l ≤ decTemp m' l') ∧
  (∀ m l m' l' : Byte, nativeCount m' l' = - nativeCount m l → decTemp m' l' = - decTemp m l) ∧
  (∀ i : Int, -128 ≤ i → i ≤ 127 → ∃ msb lsb : Byte, decTemp msb lsb = i)

/-- R63, R70, R124 (e): bits 4:0 of the low byte never matter: to DEC_TEMP, in any state, nor to READ_TEMP, where two Ok
answers to its read that differ in those bits alone lead to one and the same next state. -/
def Obligations.LowFiveTemperatureBitsAreIgnored : Prop :=
  ∀ (msb lsb lsb' : Byte) (s : State), BitVec.extractLsb' 5 3 lsb = BitVec.extractLsb' 5 3 lsb' →
    exec (.decTemp msb lsb) s = exec (.decTemp msb lsb') s ∧ tempResponse msb lsb = tempResponse msb lsb' ∧
    ∀ (r r' : TRsp) (rest : List Stimulus), s.seq = .rdWait → r.ok = true → r'.ok = true →
      r.rdata0 = msb → r'.rdata0 = msb → r.rdata1 = lsb → r'.rdata1 = lsb' →
      ∃ (t : State) (b : Byte), t.rsp = some (.ok (.data8 b)) ∧
        step { s with inputs := .answer r :: rest } = .next t ∧ step { s with inputs := .answer r' :: rest } = .next t

/-- R125: a limit image fed to the decoder gives the limit in whole degrees. Which way the half degree of a negative odd
count goes is the rounding of the spec's decision D11 (log entry 13). -/
def Obligations.DecodedLimitImageIsTheLimitInDegrees : Prop :=
  ∀ d : Count9, decTemp (msbOf (limitImage d)) (lsbOf (limitImage d)) = trunc0 ((d.toInt : ℚ) / 2)

/-- The note on D11: the other rounding gives the MSB as it stands, and the spec's reading differs from it, by exactly one,
only on negative readings with a fraction. -/
def Obligations.OtherRoundingIsTheMsb : Prop :=
  ∀ msb lsb : Byte, decTempRounded .towardMinusInfinity msb lsb = msb.toInt ∧
    decTempRounded .towardZero msb lsb = decTempRounded .towardMinusInfinity msb lsb +
      (if msb.getLsbD 7 = true ∧ BitVec.extractLsb' 5 3 lsb ≠ 0#3 then 1 else 0)

/-! ## CONFIGURE -/

/-- R26, R130, R133 (state shape: the spec's decision D5): CONFIGURE with a legal record captures it unchanged and issues
write 0, the configuration byte to register 0x01 of the record's device address, in the accepting step. -/
def Obligations.ConfigureCapturesTheRecordAndIssuesWriteZero : Prop :=
  ∀ (c : DeviceConfig) (s : State), s.seq = .idle → c.legal = true →
    ∃ v : ValidConfig, v.address = c.address ∧ v.hysteresis = c.hysteresis ∧
      v.overtemperatureThreshold = c.overtemperatureThreshold ∧ v.idleTimeout = c.idleTimeout ∧
      some v.faultQueueLength = readFaultQueueLength c.faultQueueLength ∧
      some v.alertPolarity = readAlertPolarity c.alertPolarity ∧ some v.alertMode = readAlertMode c.alertMode ∧
      some v.operatingMode = readOperatingMode c.operatingMode ∧
      Issues (exec (.configure c) s) s.inputs (.write c.address 0x01#8 (configImage v)) (.cfgWait v 0)

/-- R131: if validation fails, CONFIGURE ends with that ConfigError and has emitted no transport request, and nothing is left
to clean up; the record is validated once: an answer to a write goes on whatever record is in flight. -/
def Obligations.ConfigureValidatesFirstAndOnce : Prop :=
  (∀ (c : DeviceConfig) (f : Field) (viol : BitVec 5) (s : State), s.seq = .idle → validate c = .violation f viol →
    Responds (exec (.configure c) s) s.inputs (.configError f viol)) ∧
  (∀ (v : ValidConfig) (k : Fin 6) (r : TRsp) (s : State) (rest : List Stimulus), s.seq = .cfgWait v k → r.ok = true →
    s.inputs = .answer r :: rest → ∀ (t : State) (f : Field) (viol : BitVec 5), step s = .next t →
      t.rsp ≠ some (.configError f viol))

/-- R133, R134, R154 (state shape and stop at the first failure: the spec's decisions D5 and D12): an Ok answer to write k
issues write k + 1, an Ok answer to write 5 ends with Ok, and a failed write ends with the transport's own error. -/
def Obligations.AnswersMoveConfigureForward : Prop :=
  ∀ (s : State) (v : ValidConfig) (k : Fin 6) (r : TRsp) (rest : List Stimulus),
    s.seq = .cfgWait v k → s.inputs = .answer r :: rest →
    (r.ok = true → ∀ k' : Fin 6, k'.val = k.val + 1 → Issues (step s) rest (configWrite v k') (.cfgWait v k')) ∧
    (r.ok = true → k = 5 → Responds (step s) rest (.ok .unit)) ∧
    (r.ok = false → Responds (step s) rest (.ioError r.err))

/-- R132: a CONFIGURE whose record passed validation and whose writes are all answered Ok issues exactly these six writes, in
this order, to the record's address, the LSB writes even when their byte is zero, and then answers Ok. `FQ_CODE` stays the table
it is. -/
def Obligations.ConfigureIssuesSixWritesInOrder : Prop :=
  ∀ (s : State) (m : ReqPorts) (c : DeviceConfig) (v : ValidConfig) (as : List TRsp) (rest : List Stimulus),
    s.seq = .idle → decode m = .configure c → validate c = .ok v → as.length = 6 → (∀ r ∈ as, r.ok = true) →
    s.inputs = .request m :: (as.map .answer ++ rest) →
    ∃ q, readFaultQueueLength c.faultQueueLength = some q ∧
      observe 7 s =
        ([.write c.address 0x01#8 (0b000#3 ++ fqCode q ++ BitVec.extractLsb' 0 1 c.alertPolarity
            ++ BitVec.extractLsb' 0 1 c.alertMode ++ BitVec.extractLsb' 0 1 c.operatingMode),
          .write c.address 0x02#8 (BitVec.extractLsb' 1 8 c.hysteresis),
          .write c.address 0x02#8 (BitVec.extractLsb' 0 1 c.hysteresis ++ 0#7),
          .write c.address 0x03#8 (BitVec.extractLsb' 1 8 c.overtemperatureThreshold),
          .write c.address 0x03#8 (BitVec.extractLsb' 0 1 c.overtemperatureThreshold ++ 0#7),
          .write c.address 0x04#8 (0b000#3 ++ BitVec.extractLsb' 0 5 c.idleTimeout)], some (.ok .unit))

/-- R134, R135, R136: what is seen of a CONFIGURE whose record passed validation, for every list of events to come without a
reset, requests presented meanwhile among them. With six Ok answers: the six writes and Ok. With a failed answer before
that: the writes up to the failed one and its IoError. Otherwise: the writes issued so far and no response. Stopping at the
first failure is the spec's decision D12; that a request presented meanwhile is neither accepted nor kept is its decision
D6 and log entry 5. -/
def Obligations.ConfigureIsDeterminedByItsAnswers : Prop :=
  ∀ (s : State) (m : ReqPorts) (c : DeviceConfig) (v : ValidConfig) (es : List Stimulus) (n : Nat),
    s.seq = .idle → decode m = .configure c → validate c = .ok v → s.inputs = .request m :: es → Stimulus.reset ∉ es →
    es.length < n →
    (6 ≤ leadingOks (answersOf es) → observe n s = (configWrites v, some (.ok .unit))) ∧
    (∀ r, leadingOks (answersOf es) < 6 → (answersOf es)[leadingOks (answersOf es)]? = some r →
      observe n s = ((configWrites v).take (leadingOks (answersOf es) + 1), some (.ioError r.err))) ∧
    (leadingOks (answersOf es) < 6 → (answersOf es)[leadingOks (answersOf es)]? = none →
      observe n s = ((configWrites v).take (leadingOks (answersOf es) + 1), none))

/-- R137: for every record, every list of events to come without a reset and every number of steps, the transport sees a
prefix of the six writes; with no write seen the operation has ended in ConfigError or has not begun; it ends in Ok only
after all six; an IoError is one that an answer carried. That a request presented meanwhile is neither accepted nor kept is
the spec's decision D6 and log entry 5. -/
def Obligations.ConfigureTraceIsAPrefixOfTheSixWrites : Prop :=
  ∀ (s : State) (m : ReqPorts) (c : DeviceConfig) (es : List Stimulus) (n : Nat),
    s.seq = .idle → decode m = .configure c → s.inputs = .request m :: es → Stimulus.reset ∉ es →
    (∀ f viol, validate c = .violation f viol → 0 < n → observe n s = ([], some (.configError f viol))) ∧
    (∀ v, validate c = .ok v → ∃ j ≤ 6, (observe n s).1 = (configWrites v).take j ∧ (j = 0 ↔ n = 0) ∧
      ((observe n s).2 = none ∨ (j = 6 ∧ (observe n s).2 = some (.ok .unit)) ∨
        ∃ r : TRsp, Stimulus.answer r ∈ es ∧ r.ok = false ∧ (observe n s).2 = some (.ioError r.err)))

/-- R76: CONFIGURE is the composition of the pure operations with the transport: the data bytes of its six writes are the
answers of ENC_CFG, of ENC_HYST and ENC_OS split MSB first, and of ENC_IDLE, asked of any idle block. -/
def Obligations.ConfigureIsTheCompositionOfTheEncoders : Prop :=
  ∀ (s p : State) (m : ReqPorts) (c : DeviceConfig) (as : List TRsp) (rest : List Stimulus),
    s.seq = .idle → p.seq = .idle → decode m = .configure c → Responds (exec (.validate c) p) p.inputs (.ok .unit) →
    as.length = 6 → (∀ r ∈ as, r.ok = true) → s.inputs = .request m :: (as.map .answer ++ rest) →
    ∃ (b : Byte) (h o : Half) (i : Byte),
      Responds (exec (.encCfg c) p) p.inputs (.ok (.data8 b)) ∧ Responds (exec (.encHyst c) p) p.inputs (.ok (.data16 h)) ∧
      Responds (exec (.encOs c) p) p.inputs (.ok (.data16 o)) ∧ Responds (exec (.encIdle c) p) p.inputs (.ok (.data8 i)) ∧
      observe 7 s =
        ([.write c.address 0x01#8 b, .write c.address 0x02#8 (BitVec.extractLsb' 8 8 h),
          .write c.address 0x02#8 (BitVec.extractLsb' 0 8 h), .write c.address 0x03#8 (BitVec.extractLsb' 8 8 o),
          .write c.address 0x03#8 (BitVec.extractLsb' 0 8 o), .write c.address 0x04#8 i], some (.ok .unit))

/-! ## READ_TEMP -/

/-- R140, R141, R143 (state shape: the spec's decision D5): READ_TEMP is accepted whatever its address and issues the read
of register 0x00 in the accepting step, address and timeout unchanged. -/
def Obligations.ReadTempIssuesTheRead : Prop :=
  ∀ (a : Byte) (tmo : BitVec Config.timeoutW) (s : State), s.seq = .idle →
    Issues (exec (.readTemp a tmo) s) s.inputs (.read a 0x00#8 tmo) .rdWait

/-- R142: whatever the transport does and however many steps are taken, a READ_TEMP that is accepted emits exactly one
transport request, this read of register 0x00 with address and timeout as given, and never a write; on the TREQ fields it
is `t_kind` 1, `t_dev` the address, `t_reg` 0x00, the timeout as given and no data byte. -/
def Obligations.ReadTempEmitsExactlyOneRead : Prop :=
  ∀ (s : State) (m : ReqPorts) (a : Byte) (tmo : BitVec Config.timeoutW) (es : List Stimulus) (n : Nat),
    s.seq = .idle → decode m = .readTemp a tmo → s.inputs = .request m :: es → Stimulus.reset ∉ es → 0 < n →
    (observe n s).1 = [.read a 0x00#8 tmo] ∧
    treqPorts (.read a 0x00#8 tmo) = { tKind := 1#1, tDev := a, tReg := 0x00#8, tWdata := none, tTimeout := some tmo }

/-- R76, R143, R145: an Ok answer to the read ends READ_TEMP with the very response DEC_TEMP gives for the two bytes, the
byte received first as the MSB (the spec's decision D13), and with nothing else: neither address, timeout nor anything
before it matters. -/
def Obligations.ReadTempAnswersAsDecTemp : Prop :=
  ∀ (s p : State) (r : TRsp) (rest : List Stimulus) (rsp : Rsp), s.seq = .rdWait → p.seq = .idle → r.ok = true →
    s.inputs = .answer r :: rest → Responds (exec (.decTemp r.rdata0 r.rdata1) p) p.inputs rsp → Responds (step s) rest rsp

/-- R144: on IoError READ_TEMP returns that IoError with no temperature value and does not retry the read. -/
def Obligations.FailedReadHasNoTemperature : Prop :=
  ∀ (s : State) (r : TRsp) (rest : List Stimulus), s.seq = .rdWait → r.ok = false → s.inputs = .answer r :: rest →
    Responds (step s) rest (.ioError r.err) ∧
    ∀ u : BitVec Config.ioErrW, (rspPorts u (.ioError r.err)).data8 = none ∧ (rspPorts u (.ioError r.err)).data16 = none

/-! ## Errors, requests and responses over the whole machine -/

/-- R152: an IoError is given only in the step that takes a failed answer to the operation in flight, and it is that answer's
payload bit for bit, in `rsp.io_err` under status 2 (the spec's numbering, D9); and every such answer gives one. -/
def Obligations.IoErrorIsTheTransportsOwn : Prop :=
  (∀ (s t : State) (e : BitVec Config.ioErrW), step s = .next t → t.rsp = some (.ioError e) →
    s.seq ≠ .idle ∧ ∃ r : TRsp, s.inputs = .answer r :: t.inputs ∧ r.ok = false ∧ r.err = e) ∧
  (∀ (s : State) (r : TRsp) (rest : List Stimulus), s.seq ≠ .idle → r.ok = false → s.inputs = .answer r :: rest →
    Responds (step s) rest (.ioError r.err)) ∧
  (∀ (u e : BitVec Config.ioErrW), (rspPorts u (.ioError e)).status = 2#2 ∧ (rspPorts u (.ioError e)).ioErr = e)

/-- R150, R155: a ConfigError is given only in the step that accepts a format-C request with a record that fails
validation; so DEC_TEMP and READ_TEMP never end in one, and a CONFIGURE that has issued a write never does. -/
def Obligations.ConfigErrorOnlyFromAnIllegalRecord : Prop :=
  ∀ (s t : State) (f : Field) (viol : BitVec 5), step s = .next t → t.rsp = some (.configError f viol) →
    s.seq = .idle ∧ ∃ m c, s.inputs = .request m :: t.inputs ∧ validate c = .violation f viol ∧
      decode m ∈ [Instr.validate c, .encCfg c, .encHyst c, .encOs c, .encIdle c, .configure c]

/-- R47, R51, R133, R142: a request leaves the block in three ways only: write 0 when a CONFIGURE is accepted, the read when a
READ_TEMP is accepted, and write k + 1 in the step that takes an Ok answer to write k. So at most one request is
outstanding, none is repeated, and the pure operations issue none. -/
def Obligations.RequestsLeaveOneAtATimeInOrder : Prop :=
  ∀ (s t : State) (q : TReq), step s = .next t → t.treq = some q →
    (s.seq = .idle ∧ ∃ m c v, s.inputs = .request m :: t.inputs ∧ decode m = .configure c ∧ validate c = .ok v ∧
      q = configWrite v 0 ∧ t.seq = .cfgWait v 0) ∨
    (s.seq = .idle ∧ ∃ m a tmo, s.inputs = .request m :: t.inputs ∧ decode m = .readTemp a tmo ∧
      q = .read a 0x00#8 tmo ∧ t.seq = .rdWait) ∨
    (∃ v k k' r, s.seq = .cfgWait v k ∧ s.inputs = .answer r :: t.inputs ∧ r.ok = true ∧ k'.val = k.val + 1 ∧
      q = configWrite v k' ∧ t.seq = .cfgWait v k')

/-- R41, R74: what no step produces: status 3, the field codes 6 and 7 (or 0 beside status 1), a register address above 0x04,
a write to register 0x00 or a read of another register. What stands on the TREQ fields after a step is the very request the
block issued, its device address, register, data byte or timeout unchanged (R34). The numbering of status and field codes is
the spec's decision D9. -/
def Obligations.ReservedValuesAreNeverProduced : Prop :=
  ∀ s t : State, step s = .next t →
    (∀ r, t.rspOnPorts = some r → r.status ≠ 3#2 ∧ r.errField ≠ 6#3 ∧ r.errField ≠ 7#3 ∧
      (r.status = 1#2 ↔ r.errField ≠ 0#3) ∧ (r.status ≠ 0#2 → r.data8 = none ∧ r.data16 = none)) ∧
    (∀ q, t.treqOnPorts = some q →
      (q.tKind = 0#1 → 1 ≤ q.tReg.toNat ∧ q.tReg.toNat ≤ 4 ∧ q.tTimeout = none ∧
        ∃ d r b, t.treq = some (.write d r b) ∧ q.tDev = d ∧ q.tReg = r ∧ q.tWdata = some b) ∧
      (q.tKind = 1#1 → q.tReg = 0x00#8 ∧ q.tWdata = none ∧
        ∃ d tmo, t.treq = some (.read d 0x00#8 tmo) ∧ q.tDev = d ∧ q.tTimeout = some tmo))

/-- R25, R151 (the spec's decision D9): the fields of a response. `err_field` is one more than the number of the field's bit
in `viol`, `viol` and `err_field` are 0 unless status is 1, a result is absent unless status is 0. Nothing is said of
`io_err` unless status is 2: it is a free value (log entry 6). -/
def Obligations.ResponseFieldsFollowItsShape : Prop :=
  ∀ u : BitVec Config.ioErrW,
    (∀ res, (rspPorts u (.ok res)).status = 0#2 ∧ (rspPorts u (.ok res)).errField = 0#3 ∧ (rspPorts u (.ok res)).viol = 0#5) ∧
    (∀ f viol, (rspPorts u (.configError f viol)).status = 1#2 ∧
      (rspPorts u (.configError f viol)).errField.toNat = checkBit f + 1 ∧ (rspPorts u (.configError f viol)).viol = viol ∧
      (rspPorts u (.configError f viol)).data8 = none ∧ (rspPorts u (.configError f viol)).data16 = none) ∧
    (∀ e, (rspPorts u (.ioError e)).status = 2#2 ∧ (rspPorts u (.ioError e)).errField = 0#3 ∧
      (rspPorts u (.ioError e)).viol = 0#5 ∧ (rspPorts u (.ioError e)).ioErr = e) ∧
    (rspPorts u (.ok .unit)).data8 = none ∧ (rspPorts u (.ok .unit)).data16 = none ∧
    (∀ b, (rspPorts u (.ok (.data8 b))).data8 = some b ∧ (rspPorts u (.ok (.data8 b))).data16 = none) ∧
    (∀ h, (rspPorts u (.ok (.data16 h))).data16 = some h ∧ (rspPorts u (.ok (.data16 h))).data8 = none)

/-- R20, R30, R171: nothing survives an operation. Two idle blocks to which the same events arrive show the same transport
requests and the same response, whatever happened to either before; the draw counter, which only indexes a free value,
does not matter. -/
def Obligations.IdleBlockForgetsItsPast : Prop :=
  ∀ (s t : State), s.seq = .idle → t.seq = .idle → s.inputs = t.inputs → ∀ n : Nat, observe n s = observe n t

/-- R136, R145: in flight, what is seen depends only on `seq` and on the answers: presenting any requests meanwhile, or
changing them, changes nothing, so the caller cannot reach a record already captured (R26, R177). -/
def Obligations.CallerCannotReachAnOperationInFlight : Prop :=
  ∀ (s t : State) (n k : Nat), s.seq ≠ .idle → s.seq = t.seq → Stimulus.reset ∉ s.inputs → Stimulus.reset ∉ t.inputs →
    answersOf s.inputs = answersOf t.inputs → s.inputs.length ≤ n → t.inputs.length ≤ k → observe n s = observe k t

/-! ## The TREQ fields, and the parameter `FQ_CODE` -/

/-- R34, R42, R43: the fields of a transport request. A write has `t_kind` 0, its device address, register and data byte, and
no timeout; a read has `t_kind` 1, its device address, register and timeout, and no data byte. The widths are the spec's
decision D3, the channel its decision D1. -/
def Obligations.RequestFieldsFollowItsKind : Prop :=
  (∀ d r b : Byte, (treqPorts (.write d r b)).tKind = 0#1 ∧ (treqPorts (.write d r b)).tDev = d ∧
    (treqPorts (.write d r b)).tReg = r ∧ (treqPorts (.write d r b)).tWdata = some b ∧
    (treqPorts (.write d r b)).tTimeout = none) ∧
  (∀ (d r : Byte) (tmo : BitVec Config.timeoutW), (treqPorts (.read d r tmo)).tKind = 1#1 ∧
    (treqPorts (.read d r tmo)).tDev = d ∧ (treqPorts (.read d r tmo)).tReg = r ∧
    (treqPorts (.read d r tmo)).tWdata = none ∧ (treqPorts (.read d r tmo)).tTimeout = some tmo)

/-- R7, R67, R102: `FQ_CODE` is a parameter that may be any table. It reaches a register image in bits 4:3 of the
configuration byte and nowhere else: at any table bits 4:3 are its code and the other bits, those of the default's image;
CONFIGURE at that table runs as it does at the default, with write 0 alone taken from that table; and the operations of
`exec` are these at the default table. That default is the spec's decision D7 (log entry 12). -/
def Obligations.FqCodeIsAParameterOfTheConfigurationByteAlone : Prop :=
  (∀ (fq : FqTable) (v : ValidConfig), BitVec.extractLsb' 3 2 (configImageIn fq v) = fq v.faultQueueLength ∧
    (∀ i < 8, i ≠ 3 → i ≠ 4 → (configImageIn fq v).getLsbD i = (configImage v).getLsbD i) ∧
    configWriteIn fq v 0 = .write v.address 0x01#8 (configImageIn fq v) ∧
    (∀ k : Fin 6, k ≠ 0 → configWriteIn fq v k = configWrite v k)) ∧
  (∀ (fq : FqTable) (c : DeviceConfig) (s : State), s.seq = .idle →
    (∀ v, validate c = .ok v →
      Responds (execEncCfgIn fq c s) s.inputs (.ok (.data8 (configImageIn fq v))) ∧
      Issues (execConfigureIn fq c s) s.inputs (configWriteIn fq v 0) (.cfgWait v 0)) ∧
    (∀ f viol, validate c = .violation f viol → execEncCfgIn fq c s = exec (.encCfg c) s ∧
      execConfigureIn fq c s = exec (.configure c) s)) ∧
  (∀ (fq : FqTable) (r : TRsp) (s : State), State.takeAnswerIn fq r s = State.takeAnswer r s) ∧
  (∀ (c : DeviceConfig) (s : State), exec (.encCfg c) s = execEncCfgIn fqCode c s ∧
    exec (.configure c) s = execConfigureIn fqCode c s)
end

