-- ==== Sys2Proof/Laws/State.lean ====
section
/-! SUPPORT. One lemma for each field and each update of the state. -/

namespace Sys2Proof.Machine

variable (s : State) (r : Rsp) (q : TReq) (n : Seq) (f : Field) (viol : BitVec 5) (e : BitVec Config.ioErrW)

@[simp] theorem quiet_seq : s.quiet.seq = s.seq := rfl
@[simp] theorem quiet_rsp : s.quiet.rsp = none := rfl
@[simp] theorem quiet_treq : s.quiet.treq = none := rfl
@[simp] theorem quiet_inputs : s.quiet.inputs = s.inputs := rfl
@[simp] theorem quiet_draws : s.quiet.draws = s.draws := rfl

@[simp] theorem respond_seq : (s.respond r).seq = .idle := rfl
@[simp] theorem respond_rsp : (s.respond r).rsp = some r := rfl
@[simp] theorem respond_treq : (s.respond r).treq = none := rfl
@[simp] theorem respond_inputs : (s.respond r).inputs = s.inputs := rfl
@[simp] theorem respond_draws : (s.respond r).draws = s.draws + 1 := rfl

/-- Raising an error is giving a response; the lemmas about `respond` then apply. -/
@[simp] theorem raiseConfigError_eq : s.raiseConfigError f viol = s.respond (.configError f viol) := rfl
@[simp] theorem raiseIoError_eq : s.raiseIoError e = s.respond (.ioError e) := rfl

@[simp] theorem emit_seq : (s.emit q n).seq = n := rfl
@[simp] theorem emit_rsp : (s.emit q n).rsp = none := rfl
@[simp] theorem emit_treq : (s.emit q n).treq = some q := rfl
@[simp] theorem emit_inputs : (s.emit q n).inputs = s.inputs := rfl
@[simp] theorem emit_draws : (s.emit q n).draws = s.draws := rfl

/-- The image and the writes at the default table go by their own names (no simp lemmas: they would undo an unfolding). -/
theorem configImageIn_fqCode (v : ValidConfig) : configImageIn fqCode v = configImage v := rfl
theorem configWriteIn_fqCode (v : ValidConfig) (k : Fin 6) : configWriteIn fqCode v k = configWrite v k := rfl

/-- Issuing a write is emitting it; the lemmas about `emit` then apply. -/
@[simp] theorem issueWrite_eq (fq : FqTable) (v : ValidConfig) (k : Fin 6) :
    s.issueWrite fq v k = s.emit (configWriteIn fq v k) (.cfgWait v k) := rfl

@[simp] theorem resetBlock_seq : s.resetBlock.seq = .idle := rfl
@[simp] theorem resetBlock_rsp : s.resetBlock.rsp = none := rfl
@[simp] theorem resetBlock_treq : s.resetBlock.treq = none := rfl
@[simp] theorem resetBlock_inputs : s.resetBlock.inputs = s.inputs := rfl
@[simp] theorem resetBlock_draws : s.resetBlock.draws = s.draws := rfl

end Sys2Proof.Machine
end

