-- ==== Sys2Proof/Laws/Ops.lean ====
section
/-! SUPPORT. One lemma for each shared operation that says what it can do. -/

namespace Sys2Proof.Machine

theorem whenIdle_of_idle {s : State} (k : State → State) (h : s.seq = .idle) : s.whenIdle k = k s := by
  simp [State.whenIdle, h]

theorem whenIdle_of_busy {s : State} (k : State → State) (h : s.seq ≠ .idle) : s.whenIdle k = s.quiet := by
  unfold State.whenIdle
  cases hs : s.seq <;> simp_all

theorem gated_of_ok {c : DeviceConfig} {v : ValidConfig} (k : ValidConfig → State → State) (s : State)
    (h : validate c = .ok v) : State.gated c k s = k v s := by
  simp [State.gated, h]

theorem gated_of_violation {c : DeviceConfig} {f : Field} {viol : BitVec 5} (k : ValidConfig → State → State) (s : State)
    (h : validate c = .violation f viol) : State.gated c k s = s.respond (.configError f viol) := by
  simp [State.gated, h]

theorem nextWrite_eq_some {k k' : Fin 6} : nextWrite k = some k' ↔ k'.val = k.val + 1 := by
  revert k k'; decide

theorem nextWrite_eq_none {k : Fin 6} : nextWrite k = none ↔ k = 5 := by
  revert k; decide

/-- Everything an answer can do, whatever `FQ_CODE` is. -/
theorem takeAnswerIn_cases (fq : FqTable) (r : TRsp) (s : State) :
    (s.seq = .idle ∧ s.takeAnswerIn fq r = s.quiet) ∨
    (∃ v k k', s.seq = .cfgWait v k ∧ r.ok = true ∧ nextWrite k = some k' ∧
      s.takeAnswerIn fq r = s.emit (configWriteIn fq v k') (.cfgWait v k')) ∨
    (∃ v, s.seq = .cfgWait v 5 ∧ r.ok = true ∧ s.takeAnswerIn fq r = s.respond (.ok .unit)) ∨
    (s.seq = .rdWait ∧ r.ok = true ∧ s.takeAnswerIn fq r = s.respond (tempResponse r.rdata0 r.rdata1)) ∨
    (s.seq ≠ .idle ∧ r.ok = false ∧ s.takeAnswerIn fq r = s.respond (.ioError r.err)) := by
  unfold State.takeAnswerIn
  cases hs : s.seq with
  | idle => simp
  | cfgWait v k =>
    cases hr : r.ok with
    | false => simp
    | true =>
      cases hn : nextWrite k with
      | none => obtain rfl := nextWrite_eq_none.1 hn; simp [hn]
      | some k' => simp [hn]
  | rdWait => cases hr : r.ok <;> simp

/-- Everything an answer can do, with the default table. -/
theorem takeAnswer_cases (r : TRsp) (s : State) :
    (s.seq = .idle ∧ s.takeAnswer r = s.quiet) ∨
    (∃ v k k', s.seq = .cfgWait v k ∧ r.ok = true ∧ nextWrite k = some k' ∧
      s.takeAnswer r = s.emit (configWrite v k') (.cfgWait v k')) ∨
    (∃ v, s.seq = .cfgWait v 5 ∧ r.ok = true ∧ s.takeAnswer r = s.respond (.ok .unit)) ∨
    (s.seq = .rdWait ∧ r.ok = true ∧ s.takeAnswer r = s.respond (tempResponse r.rdata0 r.rdata1)) ∨
    (s.seq ≠ .idle ∧ r.ok = false ∧ s.takeAnswer r = s.respond (.ioError r.err)) :=
  takeAnswerIn_cases fqCode r s

/-- R7's constraint on `FQ_CODE`, met by the default table. -/
theorem fqCode_injective : Function.Injective fqCode := by
  intro p q; cases p <;> cases q <;> decide

/-- `FQ_CODE` reaches write 0 of CONFIGURE alone. -/
theorem configWriteIn_congr (fq gq : FqTable) (v : ValidConfig) {k : Fin 6} (h : k ≠ 0) :
    configWriteIn fq v k = configWriteIn gq v k := by
  unfold configWriteIn; split <;> simp_all

/-- ENC_CFG of `exec`, with the default image under its own name. -/
theorem execEncCfg_eq (c : DeviceConfig) (s : State) :
    execEncCfg c s = .next (s.whenIdle (State.gated c fun v => State.respond (.ok (.data8 (configImage v))))) := rfl

/-- CONFIGURE of `exec`, with the default write 0 under its own name. -/
theorem execConfigure_eq (c : DeviceConfig) (s : State) :
    execConfigure c s = .next (s.whenIdle (State.gated c fun v => State.emit (configWrite v 0) (.cfgWait v 0))) := rfl

/-- Everything a meaning can do: the request is turned away, a response is given, or a transport request leaves. -/
theorem exec_cases (i : Instr) (s : State) :
    (s.seq ≠ .idle ∧ exec i s = .next s.quiet) ∨
    (s.seq = .idle ∧ ∃ res, exec i s = .next (s.respond (.ok res))) ∨
    (s.seq = .idle ∧ ∃ c f viol, validate c = .violation f viol ∧ exec i s = .next (s.respond (.configError f viol))) ∨
    (s.seq = .idle ∧ ∃ c v, validate c = .ok v ∧ i = .configure c ∧
      exec i s = .next (s.emit (configWrite v 0) (.cfgWait v 0))) ∨
    (s.seq = .idle ∧ ∃ a t, i = .readTemp a t ∧ exec i s = .next (s.emit (.read a regTemp t) .rdWait)) := by
  by_cases hs : s.seq = .idle
  · have gate : ∀ (c : DeviceConfig) (k : ValidConfig → State → State),
        (∃ v, validate c = .ok v ∧ s.whenIdle (State.gated c k) = k v s) ∨
        (∃ f viol, validate c = .violation f viol ∧
          s.whenIdle (State.gated c k) = s.respond (.configError f viol)) := by
      intro c k
      rw [whenIdle_of_idle _ hs]
      cases hv : validate c with
      | ok v => exact .inl ⟨v, rfl, gated_of_ok k s hv⟩
      | violation f viol => exact .inr ⟨f, viol, rfl, gated_of_violation k s hv⟩
    refine .inr ?_
    cases i with
    | validate c =>
      obtain ⟨v, -, h⟩ | ⟨f, viol, hv, h⟩ := gate c fun _ => State.respond (.ok .unit)
      · exact .inl ⟨hs, .unit, congrArg Host.Outcome.next h⟩
      · exact .inr (.inl ⟨hs, c, f, viol, hv, congrArg Host.Outcome.next h⟩)
    | encCfg c =>
      obtain ⟨v, -, h⟩ | ⟨f, viol, hv, h⟩ := gate c fun v => State.respond (.ok (.data8 (configImage v)))
      · exact .inl ⟨hs, _, congrArg Host.Outcome.next h⟩
      · exact .inr (.inl ⟨hs, c, f, viol, hv, congrArg Host.Outcome.next h⟩)
    | encHyst c =>
      obtain ⟨v, -, h⟩ | ⟨f, viol, hv, h⟩ := gate c fun v => State.respond (.ok (.data16 (limitImage v.hysteresis)))
      · exact .inl ⟨hs, _, congrArg Host.Outcome.next h⟩
      · exact .inr (.inl ⟨hs, c, f, viol, hv, congrArg Host.Outcome.next h⟩)
    | encOs c =>
      obtain ⟨v, -, h⟩ | ⟨f, viol, hv, h⟩ :=
        gate c fun v => State.respond (.ok (.data16 (limitImage v.overtemperatureThreshold)))
      · exact .inl ⟨hs, _, congrArg Host.Outcome.next h⟩
      · exact .inr (.inl ⟨hs, c, f, viol, hv, congrArg Host.Outcome.next h⟩)
    | encIdle c =>
      obtain ⟨v, -, h⟩ | ⟨f, viol, hv, h⟩ := gate c fun v => State.respond (.ok (.data8 (idleImage v.idleTimeout)))
      · exact .inl ⟨hs, _, congrArg Host.Outcome.next h⟩
      · exact .inr (.inl ⟨hs, c, f, viol, hv, congrArg Host.Outcome.next h⟩)
    | decTemp msb lsb =>
      exact .inl ⟨hs, _, congrArg Host.Outcome.next (whenIdle_of_idle (State.respond (tempResponse msb lsb)) hs)⟩
    | configure c =>
      obtain ⟨v, hv, h⟩ | ⟨f, viol, hv, h⟩ := gate c fun v => State.issueWrite fqCode v 0
      · exact .inr (.inr (.inl ⟨hs, c, v, hv, rfl, congrArg Host.Outcome.next h⟩))
      · exact .inr (.inl ⟨hs, c, f, viol, hv, congrArg Host.Outcome.next h⟩)
    | readTemp a t =>
      exact .inr (.inr (.inr ⟨hs, a, t, rfl, congrArg Host.Outcome.next (whenIdle_of_idle _ hs)⟩))
  · refine .inl ⟨hs, ?_⟩
    cases i <;> exact congrArg Host.Outcome.next (whenIdle_of_busy _ hs)

end Sys2Proof.Machine
end

