-- ==== Sys2Proof/Laws/PerInstr.lean ====
section
/-! SUPPORT. Statements for all instructions, made per instruction. -/

namespace Sys2Proof.Laws.OpDetermines

/-- A REQ message with the op code of `i` names an operation with that op code, whatever its operand ports hold (R60). -/
def Statement (i : Instr) : Prop := ∀ m : ReqPorts, m.op = opCode i → opCode (decode m) = opCode i

theorem validate (c : DeviceConfig) : Statement (.validate c) := by intro m h; simp [decode, h, opCode]
theorem encCfg (c : DeviceConfig) : Statement (.encCfg c) := by intro m h; simp [decode, h, opCode]
theorem encHyst (c : DeviceConfig) : Statement (.encHyst c) := by intro m h; simp [decode, h, opCode]
theorem encOs (c : DeviceConfig) : Statement (.encOs c) := by intro m h; simp [decode, h, opCode]
theorem encIdle (c : DeviceConfig) : Statement (.encIdle c) := by intro m h; simp [decode, h, opCode]
theorem decTemp (msb lsb : Byte) : Statement (.decTemp msb lsb) := by intro m h; simp [decode, h, opCode]
theorem configure (c : DeviceConfig) : Statement (.configure c) := by intro m h; simp [decode, h, opCode]
theorem readTemp (a : Byte) (t : BitVec Config.timeoutW) : Statement (.readTemp a t) := by
  intro m h; simp [decode, h, opCode]

end Sys2Proof.Laws.OpDetermines
end

