-- ==== Sys2Proof/Laws/Step.lean ====
section
/-! SUPPORT. What one step is, event by event. -/

namespace Sys2Proof.Machine

theorem step_of_none {s : State} (h : s.inputs = []) : step s = .fault s.stuckReason := by
  simp [step, State.nextStimulus, h]

theorem step_of_answer {s : State} {r : TRsp} {rest : List Stimulus} (h : s.inputs = .answer r :: rest) :
    step s = .next (State.takeAnswer r { s with inputs := rest }) := by
  simp [step, State.nextStimulus, h]

theorem step_of_reset {s : State} {rest : List Stimulus} (h : s.inputs = .reset :: rest) :
    step s = .next (State.resetBlock { s with inputs := rest }) := by
  simp [step, State.nextStimulus, h]

/-- A step that answers a next state took one event. -/
theorem step_next_inputs {s t : State} (h : step s = .next t) : ∃ e, s.inputs = e :: t.inputs := by
  cases hi : s.inputs with
  | nil => simp [step_of_none hi] at h
  | cons e rest =>
    refine ⟨e, ?_⟩
    cases e with
    | request m =>
      have h' : exec (decode m) { s with inputs := rest } = .next t := by
        simpa [step, State.nextStimulus, hi] using h
      obtain ⟨-, h1⟩ | ⟨-, _, h1⟩ | ⟨-, _, _, _, -, h1⟩ | ⟨-, _, _, -, -, h1⟩ | ⟨-, _, _, -, h1⟩ :=
        exec_cases (decode m) { s with inputs := rest } <;>
      · rw [h1] at h'; cases h'; rfl
    | answer r =>
      rw [step_of_answer hi] at h
      obtain ⟨-, h1⟩ | ⟨_, _, _, -, -, -, h1⟩ | ⟨_, -, -, h1⟩ | ⟨-, -, h1⟩ | ⟨-, -, h1⟩ :=
        takeAnswer_cases r { s with inputs := rest } <;>
      · rw [h1] at h; cases h; rfl
    | reset => rw [step_of_reset hi] at h; cases h; rfl

end Sys2Proof.Machine
end

