-- ==== Sys2Proof/Laws/Validator.lean ====
section
/-! SUPPORT. When the validator's checks pass, in the words of R73, and what the record it admits holds. -/

namespace Sys2Proof.Machine

theorem readOperatingMode_isSome (c : DeviceConfig) :
    (readOperatingMode c.operatingMode).isSome = c.operatingModeLegal := by
  unfold readOperatingMode DeviceConfig.operatingModeLegal
  split_ifs <;> simp_all

theorem readAlertMode_isSome (c : DeviceConfig) : (readAlertMode c.alertMode).isSome = c.alertModeLegal := by
  unfold readAlertMode DeviceConfig.alertModeLegal
  split_ifs <;> simp_all

theorem readAlertPolarity_isSome (c : DeviceConfig) :
    (readAlertPolarity c.alertPolarity).isSome = c.alertPolarityLegal := by
  unfold readAlertPolarity DeviceConfig.alertPolarityLegal
  split_ifs <;> simp_all

theorem readFaultQueueLength_isSome (c : DeviceConfig) :
    (readFaultQueueLength c.faultQueueLength).isSome = c.faultQueueLegal := by
  unfold readFaultQueueLength DeviceConfig.faultQueueLegal
  split_ifs <;> simp_all

/-- A record is admitted exactly when its five checked fields are legal. -/
theorem admitIn_isSome (addrs : List Byte) (c : DeviceConfig) : (admitIn addrs c).isSome = c.legalIn addrs := by
  unfold admitIn DeviceConfig.legalIn DeviceConfig.addressLegal
  rw [← readOperatingMode_isSome, ← readAlertMode_isSome, ← readAlertPolarity_isSome, ← readFaultQueueLength_isSome]
  cases addrs.contains c.address <;> cases readOperatingMode c.operatingMode <;> cases readAlertMode c.alertMode <;>
    cases readAlertPolarity c.alertPolarity <;> cases readFaultQueueLength c.faultQueueLength <;> rfl

/-- Each bit of `viol` is its own field's check. -/
theorem violIn_bits (addrs : List Byte) (c : DeviceConfig) :
    (violIn addrs c).getLsbD 0 = !c.addressLegal addrs ∧ (violIn addrs c).getLsbD 1 = !c.operatingModeLegal ∧
      (violIn addrs c).getLsbD 2 = !c.alertModeLegal ∧ (violIn addrs c).getLsbD 3 = !c.alertPolarityLegal ∧
      (violIn addrs c).getLsbD 4 = !c.faultQueueLegal := by
  rw [← readOperatingMode_isSome, ← readAlertMode_isSome, ← readAlertPolarity_isSome, ← readFaultQueueLength_isSome]
  unfold violIn DeviceConfig.addressLegal
  simp only [← Option.not_isSome]
  generalize addrs.contains c.address = a
  generalize (readOperatingMode c.operatingMode).isSome = b
  generalize (readAlertMode c.alertMode).isSome = d
  generalize (readAlertPolarity c.alertPolarity).isSome = e
  generalize (readFaultQueueLength c.faultQueueLength).isSome = f
  revert a b d e f
  decide

/-- A legal record passes the validator. -/
theorem validate_of_legal {c : DeviceConfig} (h : c.legal = true) : ∃ v, validate c = .ok v := by
  rw [DeviceConfig.legal, ← admitIn_isSome, Option.isSome_iff_exists] at h
  obtain ⟨v, hv⟩ := h
  exact ⟨v, by simp [validate, validateIn, hv]⟩

/-- An illegal record fails it, with its own `viol` and the field that names. -/
theorem validate_of_illegal {c : DeviceConfig} (h : c.legal = false) :
    validate c = .violation (firstField (violIn Config.addrSet c)) (violIn Config.addrSet c) := by
  rw [DeviceConfig.legal, ← admitIn_isSome, Option.isSome_eq_false_iff, Option.isNone_iff_eq_none] at h
  simp [validate, validateIn, h]

/-- A record whose five checked fields are read passes, and what is captured. -/
theorem validate_of_fields {c : DeviceConfig} {om : OperatingMode} {am : AlertMode} {ap : AlertPolarity}
    {fq : FaultQueueLength} (ha : c.address ∈ Config.addrSet) (ho : readOperatingMode c.operatingMode = some om)
    (hm : readAlertMode c.alertMode = some am) (hp : readAlertPolarity c.alertPolarity = some ap)
    (hf : readFaultQueueLength c.faultQueueLength = some fq) :
    validate c = .ok ⟨c.address, c.hysteresis, c.overtemperatureThreshold, c.idleTimeout, fq, ap, am, om⟩ := by
  simp [validate, validateIn, admitIn, ho, hm, hp, hf, ha]

/-- A record that passes is captured field by field, and its address is one of the codes. -/
theorem validate_ok_fields {c : DeviceConfig} {v : ValidConfig} (h : validate c = .ok v) :
    v.address = c.address ∧ v.address ∈ Config.addrSet ∧ v.hysteresis = c.hysteresis ∧
      v.overtemperatureThreshold = c.overtemperatureThreshold ∧ v.idleTimeout = c.idleTimeout ∧
      readFaultQueueLength c.faultQueueLength = some v.faultQueueLength ∧
      readAlertPolarity c.alertPolarity = some v.alertPolarity ∧ readAlertMode c.alertMode = some v.alertMode ∧
      readOperatingMode c.operatingMode = some v.operatingMode := by
  unfold validate validateIn at h
  cases ha : admitIn Config.addrSet c with
  | none => simp [ha] at h
  | some w =>
    simp only [ha, Verdict.ok.injEq] at h
    subst h
    unfold admitIn at ha
    split at ha
    · cases ha; simp_all
    · cases ha

/-- The first address code is one of the codes. -/
theorem addrTable8_zero_mem : Config.addrTable8[0] ∈ Config.addrSet := by
  simp [Config.addrSet]

/-- Some byte is no address code: there are 30 codes and 256 bytes. -/
theorem exists_not_mem_addrSet : ∃ a : Byte, a ∉ Config.addrSet := by
  by_contra h
  push Not at h
  have hall : (Finset.univ : Finset (Fin 256)) ⊆ (Config.addrSet.map BitVec.toFin).toFinset := fun i _ =>
    List.mem_toFinset.2 (List.mem_map.2 ⟨BitVec.ofFin i, h _, rfl⟩)
  have hcard := (Finset.card_le_card hall).trans (List.toFinset_card_le _)
  simp [Config.addrSet] at hcard

end Sys2Proof.Machine
end

