-- ==== Sys2Proof/Tests/Slice0.lean ====
section
/-! SUPPORT. The model's own tests. Expected values are those of spec/95_test_vectors.md (S1 to S8, sections 2.1 to 2.7, P1 to
P4) or written out from a rule. The second half gives, for each statement with hypotheses, a concrete state and operands
that meet them. -/

namespace Sys2Proof.Tests

open Sys2Proof.Machine

/-! ## Small states and records -/

/-- An idle block with these events to come. -/
def idleWith (es : List Stimulus) : State := { State.reset with inputs := es }

/-- A block in this sequencer state with these events to come. -/
def inState (q : Seq) (es : List Stimulus) : State := { State.reset with seq := q, inputs := es }

/-- The 27 bytes of `FIXTURE_ADDR` (95_test_vectors.md 2.1): not the hardware's codes, a table to test membership with. -/
def fixtureAddr : List Byte :=
  [0x48#8, 0x49#8, 0x4A#8, 0x4B#8, 0x4C#8, 0x4D#8, 0x4E#8, 0x4F#8, 0x70#8, 0x71#8, 0x72#8, 0x73#8, 0x74#8, 0x75#8, 0x76#8,
    0x77#8, 0x28#8, 0x29#8, 0x2A#8, 0x2B#8, 0x2C#8, 0x2D#8, 0x2E#8, 0x2F#8, 0x35#8, 0x36#8, 0x37#8]

/-- The conventions' valid record of section 2 under the fixture. -/
def fixtureRecord : DeviceConfig :=
  { address := 0x48#8, hysteresis := 0, overtemperatureThreshold := 0, idleTimeout := 0, faultQueueLength := 0x01#8,
    alertPolarity := 0x00#8, alertMode := 0x00#8, operatingMode := 0x00#8 }

/-- Record `c1` of P1, at the hardware's own first address code. -/
def c1 : DeviceConfig :=
  { address := Config.addrTable8[0], hysteresis := 0x1EC#9, overtemperatureThreshold := 0x00B#9, idleTimeout := 0x3F#8,
    faultQueueLength := 0x06#8, alertPolarity := 0x00#8, alertMode := 0x00#8, operatingMode := 0x01#8 }

/-- What the block captures of `c1`. -/
def v1 : ValidConfig :=
  { address := Config.addrTable8[0], hysteresis := 0x1EC#9, overtemperatureThreshold := 0x00B#9, idleTimeout := 0x3F#8,
    faultQueueLength := .six, alertPolarity := .activeLow, alertMode := .comparator, operatingMode := .shutdown }

/-- Record `c2` of P3: `c1` with fault-queue length 5. -/
def c2 : DeviceConfig := { c1 with faultQueueLength := 0x05#8 }

theorem validate_c1 : validate c1 = .ok v1 :=
  validate_of_fields (c := c1) addrTable8_zero_mem (by decide) (by decide) (by decide) (by decide)

theorem legal_c1 : c1.legal = true := by
  have h : Config.addrSet.contains c1.address = true := by simpa [c1] using addrTable8_zero_mem
  simp only [DeviceConfig.legal, DeviceConfig.legalIn, DeviceConfig.addressLegal, h]
  decide

theorem illegal_c2 : c2.legal = false := by
  have h : c2.faultQueueLegal = false := by decide
  simp [DeviceConfig.legal, DeviceConfig.legalIn, h]

theorem validate_c2 : validate c2 = .violation .faultQueueLength 0b10000#5 := by
  have h : Config.addrSet.contains c2.address = true := by simpa [c2, c1] using addrTable8_zero_mem
  rw [validate_of_illegal illegal_c2, violIn, h]
  decide

/-- The response of a next state. -/
def rspOf : Host.Outcome State Fault Refusal → Option Rsp
  | .next t => t.rsp
  | .fault _ => none
  | .refused _ => none

/-- The transport request of a next state. -/
def treqOf : Host.Outcome State Fault Refusal → Option TReq
  | .next t => t.treq
  | .fault _ => none
  | .refused _ => none

/-- The sequencer of a next state. -/
def seqOf : Host.Outcome State Fault Refusal → Option Seq
  | .next t => some t.seq
  | .fault _ => none
  | .refused _ => none

/-- An Ok answer with these two bytes. -/
def okAnswer (b0 b1 : Byte) : TRsp := { ok := true, err := 0, rdata0 := b0, rdata1 := b1 }

/-- A failed answer. -/
def badAnswer : TRsp := { ok := false, err := 0, rdata0 := 0, rdata1 := 0 }

/-! ## Well-formedness: an ill-formed request for each check -/

theorem test_wf_accepts : (Instr.configure fixtureRecord).wellFormedIn fixtureAddr = true := by decide
theorem test_wf_address : (Instr.validate { fixtureRecord with address := 0x50#8 }).wellFormedIn fixtureAddr = false := by decide
theorem test_wf_operatingMode :
    (Instr.encCfg { fixtureRecord with operatingMode := 0x02#8 }).wellFormedIn fixtureAddr = false := by decide
theorem test_wf_alertMode :
    (Instr.encHyst { fixtureRecord with alertMode := 0x02#8 }).wellFormedIn fixtureAddr = false := by decide
theorem test_wf_alertPolarity :
    (Instr.encOs { fixtureRecord with alertPolarity := 0x04#8 }).wellFormedIn fixtureAddr = false := by decide
theorem test_wf_faultQueue :
    (Instr.encIdle { fixtureRecord with faultQueueLength := 0x05#8 }).wellFormedIn fixtureAddr = false := by decide
theorem test_wf_configure :
    (Instr.configure { fixtureRecord with faultQueueLength := 0x00#8 }).wellFormedIn fixtureAddr = false := by decide

/-! ## Decoding: the op codes of R61 written out, each with the ports of its format -/

theorem test_decode_validate (m : ReqPorts) : decode { m with op := 0b000#3 } = .validate m.cfg := rfl
theorem test_decode_encCfg (m : ReqPorts) : decode { m with op := 0b001#3 } = .encCfg m.cfg := rfl
theorem test_decode_encHyst (m : ReqPorts) : decode { m with op := 0b010#3 } = .encHyst m.cfg := rfl
theorem test_decode_encOs (m : ReqPorts) : decode { m with op := 0b011#3 } = .encOs m.cfg := rfl
theorem test_decode_encIdle (m : ReqPorts) : decode { m with op := 0b100#3 } = .encIdle m.cfg := rfl
theorem test_decode_decTemp (m : ReqPorts) : decode { m with op := 0b101#3 } = .decTemp m.rawMsb m.rawLsb := rfl
theorem test_decode_configure (m : ReqPorts) : decode { m with op := 0b110#3 } = .configure m.cfg := rfl
theorem test_decode_readTemp (m : ReqPorts) : decode { m with op := 0b111#3 } = .readTemp m.rdAddress m.rdTimeout := rfl

/-- A table word placed where the block takes its next request runs as the first operation after reset. -/
theorem test_fetch_runs :
    step (State.reset.withFetchWord 8 0b101) = exec (.decTemp 0 0) State.reset := rfl

/-! ## The validator on the fixture (section 2.1) -/

theorem test_validate_fixture_last :
    validateIn fixtureAddr ⟨0x37#8, 0, 0, 0, 0x06#8, 0x01#8, 0x01#8, 0x01#8⟩ =
      .ok ⟨0x37#8, 0, 0, 0, .six, .activeHigh, .interrupt, .shutdown⟩ := by decide
theorem test_validate_names_address_first :
    validateIn fixtureAddr { fixtureRecord with address := 0x38#8, faultQueueLength := 0x05#8 } =
      .violation .address 0b10001#5 := by decide
theorem test_validate_names_alertMode :
    validateIn fixtureAddr { fixtureRecord with alertMode := 0x09#8, alertPolarity := 0x09#8, faultQueueLength := 0x09#8 } =
      .violation .alertMode 0b11100#5 := by decide
theorem test_validate_names_operatingMode :
    validateIn fixtureAddr { fixtureRecord with operatingMode := 0x02#8, alertMode := 0x02#8 } =
      .violation .operatingMode 0b00110#5 := by decide

/-! ## One step of each operation (P1, P3, sections 2.2 to 2.7) -/

theorem test_validate_c1 : rspOf (exec (.validate c1) (idleWith [])) = some (.ok .unit) := by
  simp [exec, execValidate, State.whenIdle, State.gated, validate_c1, idleWith, State.reset, rspOf]
theorem test_encCfg_c1 : rspOf (exec (.encCfg c1) (idleWith [])) = some (.ok (.data8 0x19#8)) := by
  simp [exec, execEncCfg, execEncCfgIn, State.whenIdle, State.gated, validate_c1, idleWith, State.reset, rspOf]; decide
theorem test_encCfg_c2 : rspOf (exec (.encCfg c2) (idleWith [])) = some (.configError .faultQueueLength 0b10000#5) := by
  simp [exec, execEncCfg, execEncCfgIn, State.whenIdle, State.gated, validate_c2, idleWith, State.reset, rspOf]
theorem test_encHyst_c1 : rspOf (exec (.encHyst c1) (idleWith [])) = some (.ok (.data16 0xF600#16)) := by
  simp [exec, execEncHyst, State.whenIdle, State.gated, validate_c1, idleWith, State.reset, rspOf]; decide
theorem test_encOs_c1 : rspOf (exec (.encOs c1) (idleWith [])) = some (.ok (.data16 0x0580#16)) := by
  simp [exec, execEncOs, State.whenIdle, State.gated, validate_c1, idleWith, State.reset, rspOf]; decide
theorem test_encIdle_c1 : rspOf (exec (.encIdle c1) (idleWith [])) = some (.ok (.data8 0x1F#8)) := by
  simp [exec, execEncIdle, State.whenIdle, State.gated, validate_c1, idleWith, State.reset, rspOf]; decide
theorem test_limitImage_smallest : limitImage 0x100#9 = 0x8000#16 := by decide
theorem test_limitImage_example : limitImage 4#9 = 0x0200#16 := by decide
theorem test_idleImage_example : idleImage 0xFF#8 = 0x1F#8 := by decide
theorem test_configImage_top :
    configImage { v1 with faultQueueLength := .four, alertPolarity := .activeHigh, alertMode := .interrupt, operatingMode := .normal } =
      0x16#8 := by decide
/-- Another assignment of codes, descending: the parameter of R7 is not tied to its default. -/
def descending : FqTable
  | .one => 0b11#2
  | .two => 0b10#2
  | .four => 0b01#2
  | .six => 0b00#2
theorem test_configImage_other_table : configImageIn descending v1 = 0x01#8 := by decide
theorem test_decTemp_example : rspOf (exec (.decTemp 0x50#8 0x00#8) (idleWith [])) = some (.ok (.data8 0x50#8)) := by decide
theorem test_decTemp_negative : rspOf (exec (.decTemp 0xAB#8 0xCD#8) (idleWith [])) = some (.ok (.data8 0xAC#8)) := by decide
theorem test_decTemp_smallest_negative : decTemp 0xFF#8 0xE0#8 = 0 := by decide
theorem test_configure_c1 : treqOf (exec (.configure c1) (idleWith [])) = some (.write c1.address 0x01#8 0x19#8) := by
  simp only [exec, execConfigure, execConfigureIn, State.whenIdle, State.gated, validate_c1, idleWith, State.reset, treqOf]; rfl
theorem test_configure_c2 : rspOf (exec (.configure c2) (idleWith [])) = some (.configError .faultQueueLength 0b10000#5) := by
  simp [exec, execConfigure, execConfigureIn, State.whenIdle, State.gated, validate_c2, idleWith, State.reset, rspOf]
theorem test_configWrite_overtemperature : configWrite v1 3 = .write c1.address 0x03#8 0x05#8 := rfl
theorem test_configWrite_last : configWrite v1 5 = .write c1.address 0x04#8 0x1F#8 := rfl
theorem test_configure_next_write :
    seqOf (step (inState (.cfgWait v1 4) [.answer (okAnswer 0 0)])) = some (.cfgWait v1 5) := rfl
theorem test_configure_done : rspOf (step (inState (.cfgWait v1 5) [.answer (okAnswer 0 0)])) = some (.ok .unit) := rfl
theorem test_readTemp_ignores_validator :
    treqOf (exec (.readTemp 0x00#8 0) (idleWith [])) = some (.read 0x00#8 0x00#8 0) := rfl
theorem test_readTemp_negative :
    rspOf (step (inState .rdWait [.answer (okAnswer 0xE6#8 0x80#8)])) = some (.ok (.data8 0xE7#8)) := rfl
theorem test_treq_write_fields :
    treqPorts (.write 0x48#8 0x01#8 0x19#8) = ⟨0#1, 0x48#8, 0x01#8, some 0x19#8, none⟩ := rfl
theorem test_treq_read_fields (tmo : BitVec Config.timeoutW) :
    treqPorts (.read 0x48#8 0x00#8 tmo) = ⟨1#1, 0x48#8, 0x00#8, none, some tmo⟩ := rfl
theorem test_status_codes (e : BitVec Config.ioErrW) :
    (rspPorts 0 (.configError .alertPolarity 0b01000#5)).errField = 4#3 ∧ (rspPorts 0 (.ioError e)).status = 2#2 := ⟨rfl, rfl⟩

/-! ## Witnesses: the hypotheses of each statement, met together -/

theorem witness_StepKeepsTheInvariant : ∃ t, (inState (.cfgWait v1 0) [.answer badAnswer]).Inv ∧
    step (inState (.cfgWait v1 0) [.answer badAnswer]) = .next t := by
  refine ⟨_, ⟨?_, ?_, ?_, ?_⟩, rfl⟩
  · rintro v k h; cases h; exact addrTable8_zero_mem
  all_goals simp [inState, State.reset]

theorem witness_StepRunsThePresentedRequest :
    (idleWith [.request (encode (.readTemp 0x48#8 0))]).inputs = .request (encode (.readTemp 0x48#8 0)) :: [] := rfl

/-- The three formats of the second half: messages that agree on the op code and on its own ports, and differ elsewhere. -/
theorem witness_DecodeReadsOpAndItsOwnFormat :
    (encode (.decTemp 1 2)).op = ({ encode (.decTemp 1 2) with rdAddress := 7 } : ReqPorts).op ∧
    (encode (.readTemp 1 2)).op = ({ encode (.readTemp 1 2) with rawMsb := 7 } : ReqPorts).op ∧
    (encode (.validate c1)).op = ({ encode (.validate c1) with rawMsb := 7 } : ReqPorts).op := ⟨rfl, rfl, rfl⟩

theorem witness_UnansweredOperationIsStuck :
    (inState .rdWait []).inputs = [] ∧ (inState .rdWait []).seq ≠ .idle ∧ (inState (.cfgWait v1 5) []).seq ≠ .idle := by
  refine ⟨rfl, ?_, ?_⟩ <;> simp [inState]

theorem witness_BusyBlockAcceptsNoRequest : (inState (.cfgWait v1 0) []).seq ≠ .idle := by simp [inState]

theorem witness_ResetAbandonsTheOperation :
    (inState (.cfgWait v1 3) [.reset, .answer badAnswer]).inputs = .reset :: [.answer badAnswer] ∧
    (idleWith [.answer badAnswer]).seq = .idle ∧ (idleWith [.answer badAnswer]).inputs = .answer badAnswer :: [] :=
  ⟨rfl, rfl, rfl⟩

/-- Met by ValidateAnswersOkOnLegalRecords, EncCfgAnswersTheConfigurationByte, EnumeratedChecksPassExactlyAtTheirMembers and
ConfigureCapturesTheRecordAndIssuesWriteZero. -/
theorem witness_legal_record_at_an_idle_block : (idleWith []).seq = .idle ∧ c1.legal = true := ⟨rfl, legal_c1⟩

theorem witness_FormatCOperationsRejectIllegalRecords : (idleWith []).seq = .idle ∧ c2.legal = false := ⟨rfl, illegal_c2⟩

/-- Both clauses of AddressCheckIsMembershipOfTheCodes: a code at either end of either table, and a byte that is no code. -/
theorem witness_AddressCheckIsMembershipOfTheCodes :
    (c1.operatingModeLegal = true ∧ c1.alertModeLegal = true ∧ c1.alertPolarityLegal = true ∧ c1.faultQueueLegal = true) ∧
    (∃ i : Fin 27, Config.addrTable8[i] = c1.address) ∧
    (∃ i : Fin 3, Config.addrTable6[i] = ({ c1 with address := Config.addrTable6[2] } : DeviceConfig).address) ∧
    (∃ a : Byte, ¬ ((∃ i : Fin 27, Config.addrTable8[i] = a) ∨ ∃ i : Fin 3, Config.addrTable6[i] = a)) := by
  refine ⟨by decide, ⟨0, rfl⟩, ⟨2, rfl⟩, ?_⟩
  obtain ⟨a, ha⟩ := exists_not_mem_addrSet
  refine ⟨a, fun h => ha ?_⟩
  rw [Config.addrSet, List.mem_append, Vector.mem_toList_iff, Vector.mem_toList_iff]
  obtain ⟨i, h⟩ | ⟨i, h⟩ := h
  · exact .inl (h ▸ Vector.getElem_mem i.isLt)
  · exact .inr (h ▸ Vector.getElem_mem i.isLt)

/-- Met by EncCfgPacksAndMasks, LimitImageIsTheFieldInBits15To7 and EncIdleMasksToFiveBits. -/
theorem witness_validated_record_at_an_idle_block : (idleWith []).seq = .idle ∧ validate c1 = .ok v1 := ⟨rfl, validate_c1⟩

/-- The inner premises of the image statements: two injective tables, an image in range at its ends, two records with one
image, a limit image. -/
theorem witness_image_ranges :
    (Function.Injective fqCode ∧ Function.Injective descending) ∧
    (0x00#8).toNat < 32 ∧ (0x1F#8).toNat < 32 ∧ configImage v1 = configImage { v1 with hysteresis := 0 } ∧
    BitVec.extractLsb' 0 7 0x8000#16 = 0#7 ∧ limitImage 0x100#9 = 0x8000#16 := by
  refine ⟨⟨fqCode_injective, ?_⟩, by decide⟩
  intro p q; cases p <;> cases q <;> decide

theorem witness_DecTempTruncatesTowardZero : (idleWith []).seq = .idle := rfl

theorem witness_DecTempRangeOrderAndSymmetry :
    nativeCount 0x80#8 0x00#8 ≤ nativeCount 0x7F#8 0xE0#8 ∧ nativeCount 0xE6#8 0x80#8 = - nativeCount 0x19#8 0x80#8 := by decide

theorem witness_LowFiveTemperatureBitsAreIgnored :
    BitVec.extractLsb' 5 3 0xE0#8 = BitVec.extractLsb' 5 3 0xFF#8 ∧ (idleWith []).seq = .idle ∧
    (inState .rdWait []).seq = .rdWait ∧ (okAnswer 0x80#8 0xE0#8).ok = true ∧ (okAnswer 0x80#8 0xFF#8).ok = true ∧
    (okAnswer 0x80#8 0xE0#8).rdata0 = (okAnswer 0x80#8 0xFF#8).rdata0 := ⟨by decide, rfl, rfl, rfl, rfl, rfl⟩

/-- The clauses of FqCodeIsAParameterOfTheConfigurationByteAlone: a record that passes, one that fails, the bit and write
numbers at their ends. -/
theorem witness_FqCodeIsAParameterOfTheConfigurationByteAlone :
    (idleWith []).seq = .idle ∧ validate c1 = .ok v1 ∧ validate c2 = .violation .faultQueueLength 0b10000#5 ∧
    ((2 < 8 ∧ 2 ≠ 3 ∧ 2 ≠ 4) ∧ (5 < 8 ∧ 5 ≠ 3 ∧ 5 ≠ 4)) ∧ (1 : Fin 6) ≠ 0 ∧ (5 : Fin 6) ≠ 0 :=
  ⟨rfl, validate_c1, validate_c2, by decide, by decide, by decide⟩

theorem witness_ConfigureValidatesFirstAndOnce :
    (idleWith []).seq = .idle ∧ validate c2 = .violation .faultQueueLength 0b10000#5 ∧
    (∃ t, (inState (.cfgWait v1 5) [.answer (okAnswer 0 0)]).seq = .cfgWait v1 5 ∧ (okAnswer 0 0).ok = true ∧
      (inState (.cfgWait v1 5) [.answer (okAnswer 0 0)]).inputs = .answer (okAnswer 0 0) :: [] ∧
      step (inState (.cfgWait v1 5) [.answer (okAnswer 0 0)]) = .next t) :=
  ⟨rfl, validate_c2, _, rfl, rfl, rfl, rfl⟩

/-- The three clauses of AnswersMoveConfigureForward: Ok to the first write, Ok to the last, a failed answer. -/
theorem witness_AnswersMoveConfigureForward :
    ((inState (.cfgWait v1 0) [.answer (okAnswer 0 0)]).inputs = .answer (okAnswer 0 0) :: [] ∧ (okAnswer 0 0).ok = true ∧
      (1 : Fin 6).val = (0 : Fin 6).val + 1) ∧
    (inState (.cfgWait v1 5) [.answer (okAnswer 0 0)]).seq = .cfgWait v1 5 ∧
    ((inState (.cfgWait v1 5) [.answer badAnswer]).inputs = .answer badAnswer :: [] ∧ badAnswer.ok = false) :=
  ⟨⟨rfl, rfl, rfl⟩, rfl, rfl, rfl⟩

/-- Six Ok answers. -/
def sixOks : List TRsp := List.replicate 6 (okAnswer 0 0)

/-- Met by ConfigureIssuesSixWritesInOrder and ConfigureIsTheCompositionOfTheEncoders. -/
theorem witness_six_ok_answers :
    decode (encode (.configure c1)) = .configure c1 ∧ validate c1 = .ok v1 ∧ sixOks.length = 6 ∧
    (∀ r ∈ sixOks, r.ok = true) ∧
    (idleWith (.request (encode (.configure c1)) :: (sixOks.map .answer ++ []))).inputs =
      .request (encode (.configure c1)) :: (sixOks.map .answer ++ []) ∧
    Responds (exec (.validate c1) (idleWith [])) (idleWith []).inputs (.ok .unit) := by
  refine ⟨rfl, validate_c1, rfl, fun r h => (List.eq_of_mem_replicate h) ▸ rfl, rfl, ?_⟩
  simp only [exec, execValidate, State.whenIdle, State.gated, validate_c1, idleWith, State.reset]
  exact ⟨_, rfl, rfl, rfl, rfl, rfl⟩

/-- The three clauses of ConfigureIsDeterminedByItsAnswers, at five and six leading Ok answers. -/
theorem witness_ConfigureIsDeterminedByItsAnswers :
    6 ≤ leadingOks (answersOf (sixOks.map .answer)) ∧ Stimulus.reset ∉ sixOks.map Stimulus.answer ∧
    (sixOks.map Stimulus.answer).length < 7 ∧
    (leadingOks (answersOf (List.replicate 5 (.answer (okAnswer 0 0)) ++ [.answer badAnswer])) = 5 ∧
      (answersOf (List.replicate 5 (.answer (okAnswer 0 0)) ++ [.answer badAnswer]))[5]? = some badAnswer) ∧
    (leadingOks (answersOf (List.replicate 5 (.answer (okAnswer 0 0)))) = 5 ∧
      (answersOf (List.replicate 5 (.answer (okAnswer 0 0))))[5]? = none) := by
  refine ⟨?_, ?_, ?_, ⟨rfl, rfl⟩, rfl, rfl⟩ <;> simp [sixOks, answersOf, leadingOks, okAnswer, List.replicate]

/-- Both clauses of ConfigureTraceIsAPrefixOfTheSixWrites. -/
theorem witness_ConfigureTraceIsAPrefixOfTheSixWrites :
    decode (encode (.configure c2)) = .configure c2 ∧ validate c2 = .violation .faultQueueLength 0b10000#5 ∧
    decode (encode (.configure c1)) = .configure c1 ∧ validate c1 = .ok v1 ∧ Stimulus.reset ∉ [Stimulus.answer badAnswer] :=
  ⟨rfl, validate_c2, rfl, validate_c1, by simp⟩

theorem witness_ReadTempIssuesTheRead : (idleWith []).seq = .idle := rfl

theorem witness_ReadTempEmitsExactlyOneRead :
    decode (encode (.readTemp 0xFF#8 0)) = .readTemp 0xFF#8 0 ∧
    (idleWith [.request (encode (.readTemp 0xFF#8 0)), .answer badAnswer]).inputs =
      .request (encode (.readTemp 0xFF#8 0)) :: [.answer badAnswer] ∧
    Stimulus.reset ∉ [Stimulus.answer badAnswer] ∧ 0 < 1 := ⟨rfl, rfl, by simp, by decide⟩

theorem witness_ReadTempAnswersAsDecTemp :
    (inState .rdWait [.answer (okAnswer 0x80#8 0x20#8)]).seq = .rdWait ∧ (idleWith []).seq = .idle ∧
    (okAnswer 0x80#8 0x20#8).ok = true ∧
    Responds (exec (.decTemp 0x80#8 0x20#8) (idleWith [])) (idleWith []).inputs (.ok (.data8 0x81#8)) :=
  ⟨rfl, rfl, rfl, _, rfl, rfl, rfl, rfl, rfl⟩

theorem witness_FailedReadHasNoTemperature :
    (inState .rdWait [.answer badAnswer]).seq = .rdWait ∧ badAnswer.ok = false ∧
    (inState .rdWait [.answer badAnswer]).inputs = .answer badAnswer :: [] := ⟨rfl, rfl, rfl⟩

theorem witness_IoErrorIsTheTransportsOwn :
    ∃ t, step (inState (.cfgWait v1 3) [.answer badAnswer]) = .next t ∧ t.rsp = some (.ioError badAnswer.err) ∧
      (inState (.cfgWait v1 3) [.answer badAnswer]).seq ≠ .idle := ⟨_, rfl, rfl, by simp [inState]⟩

theorem witness_ConfigErrorOnlyFromAnIllegalRecord :
    ∃ t, step (idleWith [.request (encode (.encOs c2))]) = .next t ∧ t.rsp = some (.configError .faultQueueLength 0b10000#5) := by
  refine ⟨_, rfl, ?_⟩
  simp [State.whenIdle, State.gated, encode, bareRequest, validate_c2, idleWith, State.reset]

/-- The three ways in which a request leaves the block. -/
theorem witness_RequestsLeaveOneAtATimeInOrder :
    (∃ t, step (idleWith [.request (encode (.configure c1))]) = .next t ∧ t.treq = some (configWrite v1 0)) ∧
    (∃ t, step (idleWith [.request (encode (.readTemp 0x48#8 0))]) = .next t ∧ t.treq = some (.read 0x48#8 0x00#8 0)) ∧
    (∃ t, step (inState (.cfgWait v1 4) [.answer (okAnswer 0 0)]) = .next t ∧ t.treq = some (configWrite v1 5)) := by
  refine ⟨⟨_, rfl, ?_⟩, ⟨_, rfl, rfl⟩, _, rfl, rfl⟩
  simp [State.whenIdle, State.gated, encode, bareRequest, validate_c1, idleWith, State.reset, configWriteIn_fqCode]

/-- Both halves of ReservedValuesAreNeverProduced: a step that gives a response, one that writes, one that reads. -/
theorem witness_ReservedValuesAreNeverProduced :
    (∃ t r, step (inState .rdWait [.answer (okAnswer 0 0)]) = .next t ∧ t.rspOnPorts = some r) ∧
    (∃ t q, step (inState (.cfgWait v1 0) [.answer (okAnswer 0 0)]) = .next t ∧ t.treqOnPorts = some q ∧ q.tKind = 0#1) ∧
    (∃ t q, step (idleWith [.request (encode (.readTemp 0x48#8 0))]) = .next t ∧ t.treqOnPorts = some q ∧ q.tKind = 1#1) :=
  ⟨⟨_, _, rfl, rfl⟩, ⟨_, _, rfl, rfl, rfl⟩, _, _, rfl, rfl, rfl⟩

/-- Two idle blocks with different pasts and the same events to come. -/
theorem witness_IdleBlockForgetsItsPast :
    (idleWith [.reset]).seq = .idle ∧ ({ idleWith [.reset] with rsp := some (.ok .unit), draws := 9 } : State).seq = .idle ∧
    (idleWith [.reset]).inputs = ({ idleWith [.reset] with rsp := some (.ok .unit), draws := 9 } : State).inputs :=
  ⟨rfl, rfl, rfl⟩

/-- The same operation in flight, the same answer to come, with and without a request presented meanwhile. -/
theorem witness_CallerCannotReachAnOperationInFlight :
    (inState (.cfgWait v1 2) [.answer badAnswer]).seq ≠ .idle ∧
    Stimulus.reset ∉ [Stimulus.request (encode (.configure c2)), .answer badAnswer] ∧
    answersOf [Stimulus.answer badAnswer] = answersOf [Stimulus.request (encode (.configure c2)), .answer badAnswer] :=
  ⟨by simp [inState], by simp, rfl⟩

end Sys2Proof.Tests
end

section
/-! PROOFS. What a meaning at any table `FQ_CODE` does, and where the table is seen. -/

namespace Sys2Proof.Machine

/-- A response given is the whole of what `Responds` asks. -/
theorem responds_respond (s : State) (r : Rsp) : Responds (.next (s.respond r)) s.inputs r :=
  ⟨s.respond r, rfl, respond_seq s r, respond_rsp s r, respond_treq s r, respond_inputs s r⟩

/-- A request emitted is the whole of what `Issues` asks. -/
theorem issues_emit (s : State) (q : TReq) (waiting : Seq) : Issues (.next (s.emit q waiting)) s.inputs q waiting :=
  ⟨s.emit q waiting, rfl, emit_seq s q waiting, emit_rsp s q waiting, emit_treq s q waiting, emit_inputs s q waiting⟩

/-! ## The configuration image (R66, R101) -/

/-- The packing of R66 leaves the bits that `CONF_MASK` clears at zero, so the mask changes nothing. -/
theorem configImageIn_eq_fields (fq : FqTable) (v : ValidConfig) :
    configImageIn fq v =
      0b000#3 ++ fq v.faultQueueLength ++ polBit v.alertPolarity ++ modeBit v.alertMode ++ sdBit v.operatingMode := by
  have mask : ∀ (q : BitVec 2) (p m d : BitVec 1),
      (0b000#3 ++ q ++ p ++ m ++ d) &&& confMask = 0b000#3 ++ q ++ p ++ m ++ d := by decide
  exact mask _ _ _ _

theorem configImageIn_codeBits (fq : FqTable) (v : ValidConfig) :
    BitVec.extractLsb' 3 2 (configImageIn fq v) = fq v.faultQueueLength := by
  have slice : ∀ (q : BitVec 2) (p m d : BitVec 1), BitVec.extractLsb' 3 2 (0b000#3 ++ q ++ p ++ m ++ d) = q := by decide
  rw [configImageIn_eq_fields]
  exact slice _ _ _ _

/-- Outside bits 4:3 the image is a function of the other fields alone. -/
theorem configImageIn_getLsbD (fq : FqTable) (v : ValidConfig) {i : Nat} (hi : i < 8) (h3 : i ≠ 3) (h4 : i ≠ 4) :
    (configImageIn fq v).getLsbD i =
      (0b00000#5 ++ polBit v.alertPolarity ++ modeBit v.alertMode ++ sdBit v.operatingMode).getLsbD i := by
  have bit : ∀ (q : BitVec 2) (p m d : BitVec 1), ∀ i < 8, i ≠ 3 → i ≠ 4 →
      (0b000#3 ++ q ++ p ++ m ++ d).getLsbD i = (0b00000#5 ++ p ++ m ++ d).getLsbD i := by decide
  rw [configImageIn_eq_fields]
  exact bit _ _ _ _ i hi h3 h4

/-! ## ENC_CFG and CONFIGURE at an idle block -/

section Idle

variable {s : State} {c : DeviceConfig} (fq : FqTable) (hs : s.seq = .idle)
include hs

theorem execEncCfgIn_of_ok {v : ValidConfig} (h : validate c = .ok v) :
    execEncCfgIn fq c s = .next (s.respond (.ok (.data8 (configImageIn fq v)))) := by
  rw [execEncCfgIn, whenIdle_of_idle _ hs, gated_of_ok _ s h]

theorem execEncCfgIn_of_violation {f : Field} {viol : BitVec 5} (h : validate c = .violation f viol) :
    execEncCfgIn fq c s = .next (s.respond (.configError f viol)) := by
  rw [execEncCfgIn, whenIdle_of_idle _ hs, gated_of_violation _ s h]

theorem execConfigureIn_of_ok {v : ValidConfig} (h : validate c = .ok v) :
    execConfigureIn fq c s = .next (s.emit (configWriteIn fq v 0) (.cfgWait v 0)) := by
  rw [execConfigureIn, whenIdle_of_idle _ hs, gated_of_ok _ s h, issueWrite_eq]

theorem execConfigureIn_of_violation {f : Field} {viol : BitVec 5} (h : validate c = .violation f viol) :
    execConfigureIn fq c s = .next (s.respond (.configError f viol)) := by
  rw [execConfigureIn, whenIdle_of_idle _ hs, gated_of_violation _ s h]

end Idle

/-! ## The operations of `exec` are those at the default table -/

theorem exec_encCfg (c : DeviceConfig) (s : State) : exec (.encCfg c) s = execEncCfgIn fqCode c s := rfl

theorem exec_configure (c : DeviceConfig) (s : State) : exec (.configure c) s = execConfigureIn fqCode c s := rfl

/-! ## An answer never issues write 0, so it does not see the table -/

theorem nextWrite_ne_zero {k k' : Fin 6} (h : nextWrite k = some k') : k' ≠ 0 := by
  have := nextWrite_eq_some.1 h
  rintro rfl
  simp at this

theorem takeAnswerIn_congr (fq gq : FqTable) (r : TRsp) (s : State) : s.takeAnswerIn fq r = s.takeAnswerIn gq r := by
  unfold State.takeAnswerIn
  cases s.seq with
  | idle => rfl
  | rdWait => rfl
  | cfgWait v k =>
    cases hn : nextWrite k with
    | none => simp only [hn]
    | some k' => simp only [hn, issueWrite_eq, configWriteIn_congr fq gq v (nextWrite_ne_zero hn)]

/-- Settles O49: the table is read by `configImageIn` alone, which puts it in bits 4:3, and that image by ENC_CFG and by
write 0 of CONFIGURE alone. -/
theorem fqCodeIsAParameterOfTheConfigurationByteAlone : Obligations.FqCodeIsAParameterOfTheConfigurationByteAlone := by
  refine ⟨fun fq v => ⟨configImageIn_codeBits fq v, fun i hi h3 h4 => ?_, rfl, fun k => configWriteIn_congr fq fqCode v⟩,
    fun fq c s hs => ⟨fun v hv => ?_, fun f viol hv => ?_⟩, fun fq => takeAnswerIn_congr fq fqCode,
    fun c s => ⟨exec_encCfg c s, exec_configure c s⟩⟩
  · rw [← configImageIn_fqCode, configImageIn_getLsbD fq v hi h3 h4, configImageIn_getLsbD fqCode v hi h3 h4]
  · rw [execEncCfgIn_of_ok fq hs hv, execConfigureIn_of_ok fq hs hv]
    exact ⟨responds_respond s _, issues_emit s _ _⟩
  · rw [exec_encCfg, exec_configure, execEncCfgIn_of_violation fq hs hv, execEncCfgIn_of_violation fqCode hs hv,
      execConfigureIn_of_violation fq hs hv, execConfigureIn_of_violation fqCode hs hv]
    exact ⟨rfl, rfl⟩

end Sys2Proof.Machine
end

section
/-! PROOFS. The state over one step and over many: the invariant, what a step can put on the two output channels, and on what
an observation depends. -/

namespace Sys2Proof.Machine

/-! ## The fields of the messages (R25, R34, R151) -/

theorem fieldCode_toNat (f : Field) : (fieldCode f).toNat = checkBit f + 1 := by cases f <;> rfl

/-- The codes 6, 7 and 0 name no field. -/
theorem fieldCode_notReserved (f : Field) : fieldCode f ≠ 0#3 ∧ fieldCode f ≠ 6#3 ∧ fieldCode f ≠ 7#3 := by
  cases f <;> decide

/-- The fields of a response never hold a reserved code, whatever the response is. -/
theorem rspPorts_notReserved (u : BitVec Config.ioErrW) (r : Rsp) :
    (rspPorts u r).status ≠ 3#2 ∧ (rspPorts u r).errField ≠ 6#3 ∧ (rspPorts u r).errField ≠ 7#3 ∧
      ((rspPorts u r).status = 1#2 ↔ (rspPorts u r).errField ≠ 0#3) ∧
      ((rspPorts u r).status ≠ 0#2 → (rspPorts u r).data8 = none ∧ (rspPorts u r).data16 = none) := by
  cases r with
  | ok res => cases res <;> simp [rspPorts]
  | configError f viol => simp [rspPorts, fieldCode_notReserved f]
  | ioError e => simp [rspPorts]

/-- A write of CONFIGURE goes to the record's device and to a register from 0x01 to 0x04 (R41, R132). -/
theorem configWrite_eq_write (v : ValidConfig) (k : Fin 6) :
    ∃ r b, configWrite v k = .write v.address r b ∧ 1 ≤ r.toNat ∧ r.toNat ≤ 4 := by
  match k with
  | 0 => exact ⟨regConf, _, rfl, by decide⟩
  | 1 => exact ⟨regThyst, _, rfl, by decide⟩
  | 2 => exact ⟨regThyst, _, rfl, by decide⟩
  | 3 => exact ⟨regTos, _, rfl, by decide⟩
  | 4 => exact ⟨regTos, _, rfl, by decide⟩
  | 5 => exact ⟨regTidle, _, rfl, by decide⟩

/-! ## A ConfigError names its first failed check (R96) -/

theorem namesFirst_firstField {viol : BitVec 5} (h : viol ≠ 0#5) : NamesFirst (firstField viol) viol := by
  unfold NamesFirst
  revert viol
  decide

theorem legalIn_of_violIn_eq_zero {addrs : List Byte} {c : DeviceConfig} (h : violIn addrs c = 0#5) :
    c.legalIn addrs = true := by
  obtain ⟨ha, ho, hm, hp, hf⟩ := violIn_bits addrs c
  simp_all [DeviceConfig.legalIn]

theorem namesFirst_of_violation {c : DeviceConfig} {f : Field} {viol : BitVec 5}
    (h : validate c = .violation f viol) : NamesFirst f viol := by
  cases hl : c.legal with
  | true =>
    obtain ⟨v, hv⟩ := validate_of_legal hl
    simp [hv] at h
  | false =>
    obtain ⟨rfl, rfl⟩ : firstField _ = f ∧ _ = viol := by simpa [validate_of_illegal hl] using h
    refine namesFirst_firstField fun h0 => ?_
    simp [DeviceConfig.legal, legalIn_of_violIn_eq_zero h0] at hl

/-! ## What a step can do -/

theorem step_of_request {s : State} {m : ReqPorts} {rest : List Stimulus} (h : s.inputs = .request m :: rest) :
    step s = exec (decode m) { s with inputs := rest } := by
  simp [step, State.nextStimulus, h]

theorem exec_of_busy (i : Instr) {s : State} (h : s.seq ≠ .idle) : exec i s = .next s.quiet := by
  obtain ⟨-, h'⟩ | ⟨hs, -⟩ | ⟨hs, -⟩ | ⟨hs, -⟩ | ⟨hs, -⟩ := exec_cases i s
  · exact h'
  all_goals exact absurd hs h

/-- What a step can do to the block, from the state `u` with the event taken to the state `t`. A record whose write leaves is
one that has just passed the validator or the one already in flight. -/
inductive StepEffect (u : State) : State → Prop
  | quiet : StepEffect u u.quiet
  | reset : StepEffect u u.resetBlock
  | ok (res : Result) : StepEffect u (u.respond (.ok res))
  | ioError (e : BitVec Config.ioErrW) : StepEffect u (u.respond (.ioError e))
  | configError {c : DeviceConfig} {f : Field} {viol : BitVec 5} (hc : validate c = .violation f viol) :
      StepEffect u (u.respond (.configError f viol))
  | firstWrite {c : DeviceConfig} {v : ValidConfig} (hc : validate c = .ok v) :
      StepEffect u (u.emit (configWrite v 0) (.cfgWait v 0))
  | laterWrite {v : ValidConfig} {k k' : Fin 6} (hu : u.seq = .cfgWait v k) (hk : nextWrite k = some k') :
      StepEffect u (u.emit (configWrite v k') (.cfgWait v k'))
  | read (a : Byte) (tmo : BitVec Config.timeoutW) : StepEffect u (u.emit (.read a regTemp tmo) .rdWait)

theorem exec_effect {i : Instr} {u t : State} (h : exec i u = .next t) : StepEffect u t := by
  obtain ⟨-, h'⟩ | ⟨-, res, h'⟩ | ⟨-, c, f, viol, hc, h'⟩ | ⟨-, c, v, hc, -, h'⟩ | ⟨-, a, tmo, -, h'⟩ := exec_cases i u <;>
    obtain rfl := Host.Outcome.next.inj (h.symm.trans h')
  · exact .quiet
  · exact .ok res
  · exact .configError hc
  · exact .firstWrite hc
  · exact .read a tmo

theorem takeAnswer_effect (r : TRsp) (u : State) : StepEffect u (u.takeAnswer r) := by
  obtain ⟨-, h⟩ | ⟨v, k, k', hu, -, hk, h⟩ | ⟨v, -, -, h⟩ | ⟨-, -, h⟩ | ⟨-, -, h⟩ := takeAnswer_cases r u <;> rw [h]
  · exact .quiet
  · exact .laterWrite hu hk
  · exact .ok _
  · exact .ok _
  · exact .ioError _

theorem step_effect {s t : State} (h : step s = .next t) : ∃ u : State, u.seq = s.seq ∧ StepEffect u t := by
  obtain ⟨e, he⟩ := step_next_inputs h
  refine ⟨{ s with inputs := t.inputs }, rfl, ?_⟩
  cases e with
  | request m => exact exec_effect ((step_of_request he).symm.trans h)
  | answer r =>
    have effect := takeAnswer_effect r { s with inputs := t.inputs }
    rwa [Host.Outcome.next.inj ((step_of_answer he).symm.trans h)] at effect
  | reset =>
    have effect := StepEffect.reset (u := { s with inputs := t.inputs })
    rwa [Host.Outcome.next.inj ((step_of_reset he).symm.trans h)] at effect

/-! ## The four clauses of the invariant after a step

Only the first needs the invariant before the step. -/

section AfterStep

variable {s t : State} (h : step s = .next t)
include h

theorem step_keeps_address_of_flight (hs : ∀ v k, s.seq = .cfgWait v k → v.address ∈ Config.addrSet) (v : ValidConfig)
    (k : Fin 6) (ht : t.seq = .cfgWait v k) : v.address ∈ Config.addrSet := by
  obtain ⟨u, hu, effect⟩ := step_effect h
  cases effect with
  | quiet => exact hs v k (hu ▸ ht)
  | firstWrite hc =>
    obtain ⟨rfl, -⟩ := Seq.cfgWait.inj ht
    obtain ⟨-, hmem, -⟩ := validate_ok_fields hc
    exact hmem
  | laterWrite hw =>
    obtain ⟨rfl, -⟩ := Seq.cfgWait.inj ht
    exact hs _ _ (hu ▸ hw)
  | reset | ok | ioError | configError | read => cases ht

theorem step_rsp_ends_operation (ht : t.rsp ≠ none) : t.seq = .idle ∧ t.treq = none := by
  obtain ⟨u, -, effect⟩ := step_effect h
  cases effect with
  | ok | ioError | configError => exact ⟨rfl, rfl⟩
  | quiet | reset | firstWrite | laterWrite | read => exact absurd rfl ht

/-- A transport request leaves only as the one whose answer `seq` then awaits (R51). -/
theorem step_treq_awaited (q : TReq) (ht : t.treq = some q) :
    (∃ v k, t.seq = .cfgWait v k ∧ q = configWrite v k) ∨ (t.seq = .rdWait ∧ ∃ a tmo, q = .read a regTemp tmo) := by
  obtain ⟨u, -, effect⟩ := step_effect h
  cases effect with
  | firstWrite | laterWrite => exact .inl ⟨_, _, rfl, (Option.some.inj ht).symm⟩
  | read a tmo => exact .inr ⟨rfl, a, tmo, (Option.some.inj ht).symm⟩
  | quiet | reset | ok | ioError | configError => cases ht

theorem step_configError_namesFirst (f : Field) (viol : BitVec 5) (ht : t.rsp = some (.configError f viol)) :
    NamesFirst f viol := by
  obtain ⟨u, -, effect⟩ := step_effect h
  cases effect with
  | configError hc =>
    obtain ⟨rfl, rfl⟩ := Rsp.configError.inj (Option.some.inj ht)
    exact namesFirst_of_violation hc
  | quiet | reset | ok | ioError | firstWrite | laterWrite | read => cases ht

end AfterStep

/-- Settles O3, clause by clause: only the address of the record in flight is carried over from the state before. -/
theorem stepKeepsTheInvariant : Obligations.StepKeepsTheInvariant := by
  rintro s t ⟨haddr, -⟩ h
  exact ⟨step_keeps_address_of_flight h haddr, step_rsp_ends_operation h, step_treq_awaited h,
    step_configError_namesFirst h⟩

/-- Settles O10: the busy block goes quiet and keeps the rest of its state. -/
theorem busyBlockAcceptsNoRequest : Obligations.BusyBlockAcceptsNoRequest := by
  intro i s hs
  exact ⟨s.quiet, exec_of_busy i hs, quiet_seq s, quiet_rsp s, quiet_treq s, quiet_inputs s⟩

/-- Settles O30: the record the validator admits is the one captured, and write 0 is its configuration image. -/
theorem configureCapturesTheRecordAndIssuesWriteZero :
    Obligations.ConfigureCapturesTheRecordAndIssuesWriteZero := by
  intro c s hs hc
  obtain ⟨v, hv⟩ := validate_of_legal hc
  obtain ⟨haddr, -, hhyst, hos, hidle, hfq, hpol, hmode, hop⟩ := validate_ok_fields hv
  refine ⟨v, haddr, hhyst, hos, hidle, hfq.symm, hpol.symm, hmode.symm, hop.symm, ?_⟩
  rw [exec_configure, execConfigureIn_of_ok fqCode hs hv, ← haddr]
  exact issues_emit s (configWrite v 0) (.cfgWait v 0)

/-- Settles O44: no response has reserved fields, and a request that leaves is a write of CONFIGURE or the read of
READ_TEMP. -/
theorem reservedValuesAreNeverProduced : Obligations.ReservedValuesAreNeverProduced := by
  intro s t h
  refine ⟨fun r hr => ?_, fun p hp => ?_⟩
  · obtain ⟨rsp, -, rfl⟩ := Option.map_eq_some_iff.1 hr
    exact rspPorts_notReserved _ rsp
  · obtain ⟨q, hq, rfl⟩ := Option.map_eq_some_iff.1 hp
    obtain ⟨v, k, -, rfl⟩ | ⟨-, a, tmo, rfl⟩ := step_treq_awaited h q hq
    · obtain ⟨r, b, hw, hlo, hhi⟩ := configWrite_eq_write v k
      rw [hw] at hq ⊢
      exact ⟨fun _ => ⟨hlo, hhi, rfl, v.address, r, b, hq, rfl, rfl, rfl⟩, by simp [treqPorts]⟩
    · exact ⟨by simp [treqPorts], fun _ => ⟨rfl, rfl, a, tmo, hq, rfl, rfl⟩⟩

/-! ## What an observation is, step by step -/

theorem observe_of_inputs_nil {s : State} (h : s.inputs = []) (n : Nat) : observe n s = ([], none) := by
  cases n with
  | zero => rfl
  | succ n => simp [observe, step_of_none h]

theorem observe_succ_of_rsp {s t : State} {r : Rsp} (h : step s = .next t) (hr : t.rsp = some r) (n : Nat) :
    observe (n + 1) s = (t.treq.toList, some r) := by
  simp [observe, h, hr]

theorem observe_succ_of_no_rsp {s t : State} (h : step s = .next t) (hr : t.rsp = none) (n : Nat) :
    observe (n + 1) s = (t.treq.toList ++ (observe n t).1, (observe n t).2) := by
  simp [observe, h, hr]

/-! ## The reaction to an event reads `seq` alone (R20, R30) -/

/-- `k` leaves the events to come as they are, and all else it does to the block, the model's draw counter aside, is a
function of `seq`. -/
def ReadsSeqAlone (k : State → State) : Prop :=
  ∀ s t : State, s.seq = t.seq →
    (k s).inputs = s.inputs ∧ (k s).seq = (k t).seq ∧ (k s).rsp = (k t).rsp ∧ (k s).treq = (k t).treq

theorem readsSeqAlone_quiet : ReadsSeqAlone State.quiet := fun _ _ h => ⟨rfl, h, rfl, rfl⟩

theorem readsSeqAlone_respond (r : Rsp) : ReadsSeqAlone (State.respond r) := fun _ _ _ => ⟨rfl, rfl, rfl, rfl⟩

theorem readsSeqAlone_emit (q : TReq) (waiting : Seq) : ReadsSeqAlone (State.emit q waiting) :=
  fun _ _ _ => ⟨rfl, rfl, rfl, rfl⟩

theorem readsSeqAlone_resetBlock : ReadsSeqAlone State.resetBlock := fun _ _ _ => ⟨rfl, rfl, rfl, rfl⟩

theorem readsSeqAlone_whenIdle {k : State → State} (hk : ReadsSeqAlone k) : ReadsSeqAlone (State.whenIdle k) := by
  intro s t h
  by_cases hs : s.seq = .idle
  · rw [whenIdle_of_idle k hs, whenIdle_of_idle k (h ▸ hs)]
    exact hk s t h
  · rw [whenIdle_of_busy k hs, whenIdle_of_busy k (h ▸ hs)]
    exact readsSeqAlone_quiet s t h

theorem readsSeqAlone_gated (c : DeviceConfig) {k : ValidConfig → State → State} (hk : ∀ v, ReadsSeqAlone (k v)) :
    ReadsSeqAlone (State.gated c k) := by
  intro s t h
  cases hv : validate c with
  | ok v =>
    rw [gated_of_ok k s hv, gated_of_ok k t hv]
    exact hk v s t h
  | violation f viol =>
    rw [gated_of_violation k s hv, gated_of_violation k t hv]
    exact readsSeqAlone_respond _ s t h

theorem readsSeqAlone_takeAnswer (r : TRsp) : ReadsSeqAlone (State.takeAnswer r) := by
  intro s t h
  unfold State.takeAnswer State.takeAnswerIn
  rw [← h]
  cases s.seq with
  | idle => exact readsSeqAlone_quiet s t h
  | cfgWait v k =>
    cases r.ok with
    | false => exact readsSeqAlone_respond _ s t h
    | true =>
      cases hk : nextWrite k with
      | none => simpa only [hk, if_true] using readsSeqAlone_respond _ s t h
      | some k' => simpa only [hk, if_true, issueWrite_eq] using readsSeqAlone_emit _ _ s t h
  | rdWait => cases r.ok <;> exact readsSeqAlone_respond _ s t h

theorem exec_readsSeqAlone (i : Instr) : ∃ k, ReadsSeqAlone k ∧ ∀ s, exec i s = .next (k s) := by
  have pure : ∀ (c : DeviceConfig) (res : ValidConfig → Rsp),
      ReadsSeqAlone (State.whenIdle (State.gated c fun v => State.respond (res v))) := fun c res =>
    readsSeqAlone_whenIdle (readsSeqAlone_gated c fun v => readsSeqAlone_respond (res v))
  cases i with
  | validate c => exact ⟨_, pure c _, fun _ => rfl⟩
  | encCfg c => exact ⟨_, pure c _, fun _ => rfl⟩
  | encHyst c => exact ⟨_, pure c _, fun _ => rfl⟩
  | encOs c => exact ⟨_, pure c _, fun _ => rfl⟩
  | encIdle c => exact ⟨_, pure c _, fun _ => rfl⟩
  | decTemp msb lsb => exact ⟨_, readsSeqAlone_whenIdle (readsSeqAlone_respond _), fun _ => rfl⟩
  | configure c =>
    exact ⟨_, readsSeqAlone_whenIdle (readsSeqAlone_gated c fun v => readsSeqAlone_emit (configWrite v 0) (.cfgWait v 0)),
      execConfigure_eq c⟩
  | readTemp a tmo => exact ⟨_, readsSeqAlone_whenIdle (readsSeqAlone_emit _ _), fun _ => rfl⟩

/-- Each event has one reaction, which reads `seq` alone. -/
theorem step_readsSeqAlone (e : Stimulus) :
    ∃ k, ReadsSeqAlone k ∧
      ∀ (s : State) (rest : List Stimulus), s.inputs = e :: rest → step s = .next (k { s with inputs := rest }) := by
  cases e with
  | request m =>
    obtain ⟨k, hk, hexec⟩ := exec_readsSeqAlone (decode m)
    exact ⟨k, hk, fun s rest h => (step_of_request h).trans (hexec _)⟩
  | answer r => exact ⟨_, readsSeqAlone_takeAnswer r, fun _ _ => step_of_answer⟩
  | reset => exact ⟨_, readsSeqAlone_resetBlock, fun _ _ => step_of_reset⟩

/-- An observation depends on `seq` and the events to come, and on nothing else. -/
theorem observe_congr {s t : State} (hseq : s.seq = t.seq) (hin : s.inputs = t.inputs) (n : Nat) :
    observe n s = observe n t := by
  induction n generalizing s t with
  | zero => rfl
  | succ n ih =>
    cases hs : s.inputs with
    | nil => rw [observe_of_inputs_nil hs, observe_of_inputs_nil (hin ▸ hs)]
    | cons e rest =>
      obtain ⟨k, hk, hstep⟩ := step_readsSeqAlone e
      have hs' := hstep s rest hs
      have ht' := hstep t rest (hin ▸ hs)
      obtain ⟨hin_s, hseq', hrsp, htreq⟩ := hk { s with inputs := rest } { t with inputs := rest } hseq
      obtain ⟨hin_t, -⟩ := hk { t with inputs := rest } { t with inputs := rest } rfl
      cases hr : (k { t with inputs := rest }).rsp with
      | some r => rw [observe_succ_of_rsp hs' (hrsp.trans hr), observe_succ_of_rsp ht' hr, htreq]
      | none =>
        rw [observe_succ_of_no_rsp hs' (hrsp.trans hr), observe_succ_of_no_rsp ht' hr, htreq,
          ih hseq' (hin_s.trans hin_t.symm)]

/-- Settles O46: two idle blocks have the same `seq`. -/
theorem idleBlockForgetsItsPast : Obligations.IdleBlockForgetsItsPast :=
  fun _ _ hs ht hin => observe_congr (hs.trans ht.symm) hin

/-! ## In flight, only the answers count (R28, R136) -/

/-- A block in sequencer state `q` to which these answers arrive and nothing else. -/
def answeredWith (q : Seq) (as : List TRsp) : State := { State.reset with seq := q, inputs := as.map .answer }

@[simp] theorem answersOf_request (m : ReqPorts) (es : List Stimulus) :
    answersOf (.request m :: es) = answersOf es := rfl

@[simp] theorem answersOf_answer (r : TRsp) (es : List Stimulus) :
    answersOf (.answer r :: es) = r :: answersOf es := rfl

/-- While no response is given the operation in flight stays in flight. -/
theorem takeAnswer_busy {s : State} {r : TRsp} (hs : s.seq ≠ .idle) (hr : (s.takeAnswer r).rsp = none) :
    (s.takeAnswer r).seq ≠ .idle := by
  obtain ⟨hidle, -⟩ | ⟨v, k, k', -, -, -, h⟩ | ⟨v, -, -, h⟩ | ⟨-, -, h⟩ | ⟨-, -, h⟩ := takeAnswer_cases r s
  · exact absurd hidle hs
  · simp [h]
  all_goals simp [h] at hr

/-- The requests presented to a block in flight drop out of what is seen of it. -/
theorem observe_in_flight {s : State} {n : Nat} (hs : s.seq ≠ .idle) (hreset : Stimulus.reset ∉ s.inputs)
    (hn : s.inputs.length ≤ n) :
    observe n s = observe (answersOf s.inputs).length (answeredWith s.seq (answersOf s.inputs)) := by
  generalize hes : s.inputs = es at hreset hn ⊢
  induction es generalizing s n with
  | nil => exact observe_of_inputs_nil hes n
  | cons e es ih =>
    obtain ⟨n, rfl⟩ := Nat.exists_eq_add_one_of_ne_zero (Nat.ne_zero_of_lt hn)
    have hn' : es.length ≤ n := by simpa using hn
    have hreset' : Stimulus.reset ∉ es := fun h => hreset (List.mem_cons_of_mem e h)
    cases e with
    | request m =>
      have hstep := (step_of_request hes).trans (exec_of_busy (decode m) (s := { s with inputs := es }) hs)
      rw [observe_succ_of_no_rsp hstep (quiet_rsp _), ih (s := State.quiet { s with inputs := es }) hs rfl hreset' hn',
        answersOf_request]
      rfl
    | answer r =>
      have hstep := step_of_answer hes
      have hstep' : step (answeredWith s.seq (r :: answersOf es)) =
          .next (State.takeAnswer r (answeredWith s.seq (answersOf es))) := step_of_answer rfl
      obtain ⟨hin, hseq, hrsp, htreq⟩ := readsSeqAlone_takeAnswer r { s with inputs := es }
        (answeredWith s.seq (answersOf es)) rfl
      obtain ⟨hin', -⟩ := readsSeqAlone_takeAnswer r (answeredWith s.seq (answersOf es)) _ rfl
      rw [answersOf_answer, List.length_cons]
      cases hr : (State.takeAnswer r { s with inputs := es }).rsp with
      | some rsp => rw [observe_succ_of_rsp hstep hr, observe_succ_of_rsp hstep' (hrsp.symm.trans hr), htreq]
      | none =>
        rw [observe_succ_of_no_rsp hstep hr, observe_succ_of_no_rsp hstep' (hrsp.symm.trans hr), htreq,
          ih (takeAnswer_busy (s := { s with inputs := es }) hs hr) hin hreset' hn',
          observe_congr (s := answeredWith _ _) hseq hin'.symm]
    | reset => exact absurd List.mem_cons_self hreset

/-- Settles O47: both blocks are seen as the one to which only the answers arrive. -/
theorem callerCannotReachAnOperationInFlight : Obligations.CallerCannotReachAnOperationInFlight := by
  intro s t n k hs hseq hrs hrt hans hn hk
  rw [observe_in_flight hs hrs hn, observe_in_flight (hseq ▸ hs) hrt hk, hseq, hans]

/-! ## Reset, and the message fields -/

/-- Settles O1: the values `State.reset` gives. -/
theorem resetIsIdleWithNoMessage : Obligations.ResetIsIdleWithNoMessage := ⟨rfl, rfl, rfl⟩

/-- Settles O2: nothing is in flight and nothing is shown, so no clause of the invariant asks anything. -/
theorem resetMeetsTheInvariant : Obligations.ResetMeetsTheInvariant := by
  obtain ⟨hseq, hrsp, htreq⟩ := resetIsIdleWithNoMessage
  refine ⟨fun v k h => ?_, fun h => absurd hrsp h, fun q h => ?_, fun f viol h => ?_⟩
  · cases hseq.symm.trans h
  · cases htreq.symm.trans h
  · cases hrsp.symm.trans h

/-- Settles O45: shape by shape, the field code of a ConfigError by `fieldCode_toNat`. -/
theorem responseFieldsFollowItsShape : Obligations.ResponseFieldsFollowItsShape := by
  intro u
  refine ⟨fun res => ?_, fun f viol => ⟨rfl, fieldCode_toNat f, rfl, rfl, rfl⟩, fun e => ⟨rfl, rfl, rfl, rfl⟩, rfl, rfl,
    fun b => ⟨rfl, rfl⟩, fun h => ⟨rfl, rfl⟩⟩
  cases res <;> exact ⟨rfl, rfl, rfl⟩

/-- Settles O48: the fields `treqPorts` gives each kind. -/
theorem requestFieldsFollowItsKind : Obligations.RequestFieldsFollowItsKind :=
  ⟨fun _ _ _ => ⟨rfl, rfl, rfl, rfl, rfl⟩, fun _ _ _ => ⟨rfl, rfl, rfl, rfl, rfl⟩⟩

end Sys2Proof.Machine
end

section
/-! PROOFS. The transport: how a request leaves the block, and a block that waits for an answer in vain (20_memory.md). -/

namespace Sys2Proof.Machine

/-! ## An operation that is never answered (R49) -/

theorem stuckReason_of_busy {s : State} (h : s.seq ≠ .idle) : s.stuckReason = .noAnswer := by
  unfold State.stuckReason
  cases hs : s.seq with
  | idle => exact absurd hs h
  | cfgWait v k => rfl
  | rdWait => rfl

/-- Settles O9: with no event left a step is the fault `stuckReason`, which for a busy block is `noAnswer`. -/
theorem unansweredOperationIsStuck : Obligations.UnansweredOperationIsStuck := by
  intro s hin hs
  rw [step_of_none hin, stuckReason_of_busy hs]

/-! ## What each event can put on TREQ (R47, R51) -/

/-- Only CONFIGURE and READ_TEMP, accepted by an idle block, let a request leave: write 0 and the read. -/
theorem exec_treq {i : Instr} {u t : State} {q : TReq} (h : exec i u = .next t) (hq : t.treq = some q) :
    u.seq = .idle ∧
      ((∃ c v, i = .configure c ∧ validate c = .ok v ∧ q = configWrite v 0 ∧ t.seq = .cfgWait v 0) ∨
        ∃ a tmo, i = .readTemp a tmo ∧ q = .read a regTemp tmo ∧ t.seq = .rdWait) := by
  obtain ⟨-, h'⟩ | ⟨-, res, h'⟩ | ⟨-, c, f, viol, -, h'⟩ | ⟨hu, c, v, hc, hi, h'⟩ | ⟨hu, a, tmo, hi, h'⟩ :=
      exec_cases i u <;>
    obtain rfl := Host.Outcome.next.inj (h.symm.trans h')
  · cases hq
  · cases hq
  · cases hq
  · exact ⟨hu, .inl ⟨c, v, hi, hc, (Option.some.inj hq).symm, rfl⟩⟩
  · exact ⟨hu, .inr ⟨a, tmo, hi, (Option.some.inj hq).symm, rfl⟩⟩

/-- Only an Ok answer to a write of CONFIGURE lets a request leave: the write that follows it. -/
theorem takeAnswer_treq {r : TRsp} {u : State} {q : TReq} (hq : (u.takeAnswer r).treq = some q) :
    ∃ v k k', u.seq = .cfgWait v k ∧ r.ok = true ∧ k'.val = k.val + 1 ∧ q = configWrite v k' ∧
      (u.takeAnswer r).seq = .cfgWait v k' := by
  obtain ⟨-, h⟩ | ⟨v, k, k', hu, hr, hk, h⟩ | ⟨v, -, -, h⟩ | ⟨-, -, h⟩ | ⟨-, -, h⟩ := takeAnswer_cases r u <;>
    rw [h] at hq ⊢
  · cases hq
  · exact ⟨v, k, k', hu, hr, nextWrite_eq_some.1 hk, (Option.some.inj hq).symm, rfl⟩
  · cases hq
  · cases hq
  · cases hq

/-- Settles O43, by the event the step took: a request, an answer, or reset, after which TREQ carries nothing. -/
theorem requestsLeaveOneAtATimeInOrder : Obligations.RequestsLeaveOneAtATimeInOrder := by
  intro s t q h hq
  obtain ⟨e, he⟩ := step_next_inputs h
  cases e with
  | request m =>
    obtain ⟨hs, ⟨c, v, hm, hc, hw, ht⟩ | ⟨a, tmo, hm, hr, ht⟩⟩ := exec_treq ((step_of_request he).symm.trans h) hq
    · exact .inl ⟨hs, m, c, v, he, hm, hc, hw, ht⟩
    · exact .inr (.inl ⟨hs, m, a, tmo, he, hm, hr, ht⟩)
  | answer r =>
    have ht := Host.Outcome.next.inj ((step_of_answer he).symm.trans h)
    rw [← ht] at hq
    obtain ⟨v, k, k', hs, hr, hk, hw, hseq⟩ := takeAnswer_treq hq
    exact .inr (.inr ⟨v, k, k', r, hs, he, hr, hk, hw, ht ▸ hseq⟩)
  | reset =>
    have ht := Host.Outcome.next.inj ((step_of_reset he).symm.trans h)
    rw [← ht] at hq
    cases hq

end Sys2Proof.Machine
end

section
/-! PROOFS. Encoding: the REQ message and its decoder (30_encoding.md), the gate of the format-C operations, the register
images (R66 to R68), the temperature word (R70), and CONFIGURE and READ_TEMP against the pure operations (R76). -/

namespace Sys2Proof.Machine

/-! ## The REQ message (R60 to R64, R72) -/

/-- Settles O5: each op code is the decoder's own, and the ports read are those written. -/
theorem decodeInvertsEncode : Obligations.DecodeInvertsEncode := by
  intro i
  cases i <;> rfl

/-- A message of format C presents its record and nothing else. -/
theorem encode_decode_formatC {m : ReqPorts} (h5 : m.op ≠ 5#3) (h7 : m.op ≠ 7#3) :
    encode (decode m) = { bareRequest m.op with cfg := m.cfg } := by
  have ops : ∀ op : BitVec 3, op ≠ 5#3 → op ≠ 7#3 → op = 0#3 ∨ op = 1#3 ∨ op = 2#3 ∨ op = 3#3 ∨ op = 4#3 ∨ op = 6#3 := by
    decide
  obtain ⟨op, cfg, msb, lsb, a, tmo⟩ := m
  obtain rfl | rfl | rfl | rfl | rfl | rfl := ops op h5 h7 <;> rfl

/-- A message of format B presents its two raw bytes and nothing else. -/
theorem encode_decode_formatB {m : ReqPorts} (h : m.op = 5#3) :
    encode (decode m) = { bareRequest 5#3 with rawMsb := m.rawMsb, rawLsb := m.rawLsb } := by
  obtain ⟨op, cfg, msb, lsb, a, tmo⟩ := m
  subst h
  rfl

/-- A message of format R presents its address and timeout and nothing else. -/
theorem encode_decode_formatR {m : ReqPorts} (h : m.op = 7#3) :
    encode (decode m) = { bareRequest 7#3 with rdAddress := m.rdAddress, rdTimeout := m.rdTimeout } := by
  obtain ⟨op, cfg, msb, lsb, a, tmo⟩ := m
  subst h
  rfl

/-- The message that presents the decoded operation keeps all that decoding reads. -/
theorem decode_congr {m m' : ReqPorts} (h : encode (decode m) = encode (decode m')) : decode m = decode m' := by
  rw [← decodeInvertsEncode (decode m), h, decodeInvertsEncode]

/-- Settles O6, format by format: the operation is the one its presented message decodes to, and that message holds `op` and
the ports of the format alone. -/
theorem decodeReadsOpAndItsOwnFormat : Obligations.DecodeReadsOpAndItsOwnFormat := by
  refine ⟨fun m => ?_, fun m m' hop hC hB hR => decode_congr ?_⟩
  · by_cases h5 : m.op = 5#3
    · simp [encode_decode_formatB h5, h5, bareRequest]
    by_cases h7 : m.op = 7#3
    · simp [encode_decode_formatR h7, h7, bareRequest]
    · simp [encode_decode_formatC h5 h7, h5, h7, bareRequest]
  · by_cases h5 : m.op = 5#3
    · obtain ⟨hmsb, hlsb⟩ := hB h5
      rw [encode_decode_formatB h5, encode_decode_formatB (hop ▸ h5), hmsb, hlsb]
    by_cases h7 : m.op = 7#3
    · obtain ⟨haddr, htmo⟩ := hR h7
      rw [encode_decode_formatR h7, encode_decode_formatR (hop ▸ h7), haddr, htmo]
    · rw [encode_decode_formatC h5 h7, encode_decode_formatC (hop ▸ h5) (hop ▸ h7), hop, hC h5 h7]

/-- Settles O7: a table word is below 8, so its three bits are the word, and every port is `bareRequest`'s zero. -/
theorem opCodeWordsDecode : Obligations.OpCodeWordsDecode := ⟨rfl, rfl, rfl, rfl, rfl, rfl, rfl, rfl⟩

/-- Settles O4: the request is the event taken. -/
theorem stepRunsThePresentedRequest : Obligations.StepRunsThePresentedRequest := fun _ _ _ => step_of_request

/-! ## The operations at an idle block -/

/-- The response given is the only one that `Responds` admits. -/
theorem responds_respond_iff {s : State} {r r' : Rsp} : Responds (.next (s.respond r)) s.inputs r' ↔ r = r' := by
  constructor
  · rintro ⟨t, ht, -, hr, -, -⟩
    obtain rfl := Host.Outcome.next.inj ht
    exact Option.some.inj hr
  · rintro rfl
    exact responds_respond s r

section Idle

variable {s : State} {c : DeviceConfig} {v : ValidConfig} (hs : s.seq = .idle)
include hs

theorem whenIdle_gated_of_ok (k : ValidConfig → State → State) (h : validate c = .ok v) :
    s.whenIdle (State.gated c k) = k v s := by
  rw [whenIdle_of_idle _ hs, gated_of_ok k s h]

theorem whenIdle_gated_of_violation (k : ValidConfig → State → State) {f : Field} {viol : BitVec 5}
    (h : validate c = .violation f viol) : s.whenIdle (State.gated c k) = s.respond (.configError f viol) := by
  rw [whenIdle_of_idle _ hs, gated_of_violation k s h]

theorem exec_validate_of_ok (h : validate c = .ok v) : exec (.validate c) s = .next (s.respond (.ok .unit)) :=
  congrArg Host.Outcome.next (whenIdle_gated_of_ok hs _ h)

theorem exec_encCfg_of_ok (h : validate c = .ok v) :
    exec (.encCfg c) s = .next (s.respond (.ok (.data8 (configImage v)))) :=
  execEncCfgIn_of_ok fqCode hs h

theorem exec_encHyst_of_ok (h : validate c = .ok v) :
    exec (.encHyst c) s = .next (s.respond (.ok (.data16 (limitImage v.hysteresis)))) :=
  congrArg Host.Outcome.next (whenIdle_gated_of_ok hs _ h)

theorem exec_encOs_of_ok (h : validate c = .ok v) :
    exec (.encOs c) s = .next (s.respond (.ok (.data16 (limitImage v.overtemperatureThreshold)))) :=
  congrArg Host.Outcome.next (whenIdle_gated_of_ok hs _ h)

theorem exec_encIdle_of_ok (h : validate c = .ok v) :
    exec (.encIdle c) s = .next (s.respond (.ok (.data8 (idleImage v.idleTimeout)))) :=
  congrArg Host.Outcome.next (whenIdle_gated_of_ok hs _ h)

theorem exec_decTemp_of_idle (msb lsb : Byte) :
    exec (.decTemp msb lsb) s = .next (s.respond (tempResponse msb lsb)) :=
  congrArg Host.Outcome.next (whenIdle_of_idle _ hs)

/-- The six format-C operations pass the same gate (R110, R131). -/
theorem exec_formatC_of_violation {f : Field} {viol : BitVec 5} (h : validate c = .violation f viol) {i : Instr}
    (hi : i ∈ [Instr.validate c, .encCfg c, .encHyst c, .encOs c, .encIdle c, .configure c]) :
    exec i s = .next (s.respond (.configError f viol)) := by
  simp only [List.mem_cons, List.not_mem_nil, or_false] at hi
  obtain rfl | rfl | rfl | rfl | rfl | rfl := hi <;>
    exact congrArg Host.Outcome.next (whenIdle_gated_of_violation hs _ h)

/-- VALIDATE answers Ok only for a record that passes. -/
theorem validate_ok_of_responds (h : Responds (exec (.validate c) s) s.inputs (.ok .unit)) : ∃ v, validate c = .ok v := by
  cases hv : validate c with
  | ok v => exact ⟨v, rfl⟩
  | violation f viol =>
    rw [exec_formatC_of_violation hs hv (.head _), responds_respond_iff] at h
    cases h

end Idle

/-- Settles O13: the error is the one the validator gives, and all six operations pass the gate. -/
theorem formatCOperationsRejectIllegalRecords : Obligations.FormatCOperationsRejectIllegalRecords := by
  intro c s hs hc
  have hv := validate_of_illegal hc
  obtain ⟨haddr, hop, hmode, hpol, hfq⟩ := violIn_bits Config.addrSet c
  refine ⟨_, _, namesFirst_of_violation hv, haddr, hop, hmode, hpol, hfq, fun i hi => ?_⟩
  rw [exec_formatC_of_violation hs hv hi]
  exact responds_respond s _

/-! ## The fields the validator does not check (R97) -/

section Unchecked

variable {c : DeviceConfig} (h o : Count9) (t : Byte)

theorem validate_unchecked_of_ok {v : ValidConfig} (hv : validate c = .ok v) :
    validate { c with hysteresis := h, overtemperatureThreshold := o, idleTimeout := t } =
      .ok { v with hysteresis := h, overtemperatureThreshold := o, idleTimeout := t } := by
  obtain ⟨haddr, hmem, -, -, -, hfq, hpol, hmode, hop⟩ := validate_ok_fields hv
  rw [haddr] at hmem ⊢
  exact validate_of_fields hmem hop hmode hpol hfq

theorem validate_unchecked_of_illegal (hc : c.legal = false) :
    validate { c with hysteresis := h, overtemperatureThreshold := o, idleTimeout := t } = validate c :=
  (validate_of_illegal hc).symm ▸ validate_of_illegal hc

/-- Behind the gate, the unchecked fields reach the block only through the operation. -/
theorem gated_unchecked {k : ValidConfig → State → State}
    (hk : ∀ v, validate c = .ok v → k { v with hysteresis := h, overtemperatureThreshold := o, idleTimeout := t } = k v) :
    State.gated { c with hysteresis := h, overtemperatureThreshold := o, idleTimeout := t } k = State.gated c k := by
  funext s
  cases hc : c.legal with
  | true =>
    obtain ⟨v, hv⟩ := validate_of_legal hc
    rw [gated_of_ok k s hv, gated_of_ok k s (validate_unchecked_of_ok h o t hv), hk v hv]
  | false => rw [State.gated, State.gated, validate_unchecked_of_illegal h o t hc]

end Unchecked

/-- Settles O16: the gate does not check the three fields, and the record it captures hands each operation only its own. -/
theorem unreadFieldsHaveNoEffect : Obligations.UnreadFieldsHaveNoEffect := by
  intro c h o t s
  have congrGate {c c' : DeviceConfig} {k : ValidConfig → State → State} (hg : State.gated c' k = State.gated c k) :
      Host.Outcome.next (φ := Fault) (ρ := Refusal) (s.whenIdle (State.gated c' k)) = .next (s.whenIdle (State.gated c k)) :=
    congrArg _ (congrArg (State.whenIdle · s) hg)
  refine ⟨congrGate (gated_unchecked h o t fun _ _ => rfl), congrGate (gated_unchecked h o t fun _ _ => rfl),
    congrGate (gated_unchecked c.hysteresis o t fun v hv => ?_),
    congrGate (gated_unchecked h c.overtemperatureThreshold t fun v hv => ?_),
    congrGate (gated_unchecked h o c.idleTimeout fun v hv => ?_)⟩ <;>
  obtain ⟨-, -, hhyst, hos, hidle, -⟩ := validate_ok_fields hv
  · rw [hhyst]
  · rw [hos]
  · rw [hidle]

/-! ## The configuration byte (R66, R67) -/

theorem readOperatingMode_eq_shutdown {b : Byte} : readOperatingMode b = some .shutdown ↔ b = 0x01#8 := by
  unfold readOperatingMode
  split_ifs <;> simp_all

theorem readAlertMode_eq_interrupt {b : Byte} : readAlertMode b = some .interrupt ↔ b = 0x01#8 := by
  unfold readAlertMode
  split_ifs <;> simp_all

theorem readAlertPolarity_eq_activeHigh {b : Byte} : readAlertPolarity b = some .activeHigh ↔ b = 0x01#8 := by
  unfold readAlertPolarity
  split_ifs <;> simp_all

/-- The port value of each fault-queue length (R21). -/
def faultQueueByte : FaultQueueLength → Byte
  | .one => 0x01#8
  | .two => 0x02#8
  | .four => 0x04#8
  | .six => 0x06#8

theorem readFaultQueueLength_eq_some {b : Byte} {q : FaultQueueLength} :
    readFaultQueueLength b = some q ↔ b = faultQueueByte q := by
  unfold readFaultQueueLength
  split_ifs <;> cases q <;> simp_all [faultQueueByte]

theorem configImage_topBits (v : ValidConfig) : BitVec.extractLsb' 5 3 (configImage v) = 0#3 := by
  have slice : ∀ (q : BitVec 2) (p m d : BitVec 1), BitVec.extractLsb' 5 3 (0b000#3 ++ q ++ p ++ m ++ d) = 0#3 := by decide
  rw [← configImageIn_fqCode, configImageIn_eq_fields]
  exact slice _ _ _ _

/-- Bits 0, 1 and 2 of the image are SD, MODE and POL (R66). -/
theorem configImage_flagBits (v : ValidConfig) :
    ((configImage v).getLsbD 0 = true ↔ v.operatingMode = .shutdown) ∧
      ((configImage v).getLsbD 1 = true ↔ v.alertMode = .interrupt) ∧
      ((configImage v).getLsbD 2 = true ↔ v.alertPolarity = .activeHigh) := by
  have bit {i : Nat} (hi : i < 3) := configImageIn_getLsbD fqCode v (i := i) (by omega) (by omega) (by omega)
  rw [← configImageIn_fqCode, bit (i := 0) (by decide), bit (i := 1) (by decide), bit (i := 2) (by decide)]
  cases v.alertPolarity <;> cases v.alertMode <;> cases v.operatingMode <;> decide

/-- Bits 4:3 of the image tell the lengths apart, the default table being injective. -/
theorem configImage_codeBits_eq_iff (v : ValidConfig) (q : FaultQueueLength) :
    BitVec.extractLsb' 3 2 (configImage v) = fqCode q ↔ v.faultQueueLength = q := by
  rw [← configImageIn_fqCode, configImageIn_codeBits, fqCode_injective.eq_iff]

/-- Settles O18: each field of the image is the captured field, which is the one read from the port. -/
theorem encCfgAnswersTheConfigurationByte : Obligations.EncCfgAnswersTheConfigurationByte := by
  intro c s hs hc
  obtain ⟨v, hv⟩ := validate_of_legal hc
  obtain ⟨-, -, -, -, -, hfq, hpol, hmode, hop⟩ := validate_ok_fields hv
  obtain ⟨hsd, hint, hhigh⟩ := configImage_flagBits v
  have code (q : FaultQueueLength) :
      BitVec.extractLsb' 3 2 (configImage v) = fqCode q ↔ c.faultQueueLength = faultQueueByte q := by
    rw [configImage_codeBits_eq_iff, ← readFaultQueueLength_eq_some, hfq, Option.some_inj]
  refine ⟨configImage v, exec_encCfg_of_ok hs hv ▸ responds_respond s _, configImage_topBits v, ?_, ?_, ?_,
    code .one, code .two, code .four, code .six⟩
  · rw [hsd, ← readOperatingMode_eq_shutdown, hop, Option.some_inj]
  · rw [hint, ← readAlertMode_eq_interrupt, hmode, Option.some_inj]
  · rw [hhigh, ← readAlertPolarity_eq_activeHigh, hpol, Option.some_inj]

/-! ## The limit image (R68) -/

theorem limitImage_eq_append (d : Count9) : limitImage d = (d ++ 0#7 : Half) := by
  unfold limitImage limitShift
  ext i hi
  grind

theorem msbOf_limitImage (d : Count9) : msbOf (limitImage d) = BitVec.extractLsb' 1 8 d := by
  rw [limitImage_eq_append, msbOf]
  ext i hi
  grind

theorem lsbOf_limitImage (d : Count9) : lsbOf (limitImage d) = (BitVec.extractLsb' 0 1 d ++ 0#7 : Byte) := by
  rw [limitImage_eq_append, lsbOf]
  ext i hi
  grind

/-- Settles O20: the captured limits are the record's own, and the image is the field over seven zeros. -/
theorem limitImageIsTheFieldInBits15To7 : Obligations.LimitImageIsTheFieldInBits15To7 := by
  refine ⟨fun c v s hs hv => ?_, fun d => ⟨limitImage_eq_append d, fun i hi => ?_, fun i hi => ?_, msbOf_limitImage d,
    lsbOf_limitImage d, ?_⟩⟩
  · obtain ⟨haddr, -, hhyst, hos, -⟩ := validate_ok_fields hv
    rw [exec_encHyst_of_ok hs hv, exec_encOs_of_ok hs hv, ← haddr, ← hhyst, ← hos]
    exact ⟨responds_respond s _, responds_respond s _, rfl, rfl, rfl, rfl⟩
  · rw [limitImage_eq_append]
    grind
  · rw [limitImage_eq_append]
    grind
  · rw [lsbOf_limitImage]
    have ends : ∀ b : BitVec 1, (b ++ 0#7 : Byte) = 0x00#8 ∨ (b ++ 0#7 : Byte) = 0x80#8 := by decide
    exact ends _

/-! ## The temperature word (R70) -/

/-- Of the low byte the reading takes bits 7:5 alone. -/
theorem nativeCount_eq_append (msb lsb : Byte) :
    nativeCount msb lsb = (msb ++ BitVec.extractLsb' 5 3 lsb : BitVec 11).toInt := by
  unfold nativeCount tempWord tempShift
  congr 1
  ext i hi
  grind

theorem tempResponse_congr (msb : Byte) {lsb lsb' : Byte} (h : BitVec.extractLsb' 5 3 lsb = BitVec.extractLsb' 5 3 lsb') :
    tempResponse msb lsb = tempResponse msb lsb' := by
  have count : nativeCount msb lsb = nativeCount msb lsb' := by rw [nativeCount_eq_append, h, nativeCount_eq_append]
  simp only [tempResponse, decTemp, decTempRounded, count]

/-- An Ok answer to the read ends READ_TEMP with the decode of its two bytes (R143). -/
theorem step_of_read_answered {s : State} {r : TRsp} {rest : List Stimulus} (hs : s.seq = .rdWait) (hr : r.ok = true)
    (hin : s.inputs = .answer r :: rest) :
    step s = .next (State.respond (tempResponse r.rdata0 r.rdata1) { s with inputs := rest }) := by
  rw [step_of_answer hin]
  simp [State.takeAnswer, State.takeAnswerIn, hs, hr]

/-- Settles O27: both operations answer with `tempResponse`, which reads bits 7:5 of the low byte alone. -/
theorem lowFiveTemperatureBitsAreIgnored : Obligations.LowFiveTemperatureBitsAreIgnored := by
  intro msb lsb lsb' s h
  have hrsp := tempResponse_congr msb h
  refine ⟨?_, hrsp, ?_⟩
  · rw [exec, exec, execDecTemp, execDecTemp, hrsp]
  · rintro r r' rest hs hr hr' rfl h0 rfl rfl
    refine ⟨_, _, rfl, step_of_read_answered hs hr rfl, ?_⟩
    rw [step_of_read_answered (s := { s with inputs := .answer r' :: rest }) hs hr' rfl, h0, hrsp]

/-- Settles O39: DEC_TEMP answers `tempResponse` of the two bytes, and so does the answer step. -/
theorem readTempAnswersAsDecTemp : Obligations.ReadTempAnswersAsDecTemp := by
  intro s p r rest rsp hs hp hr hin hdec
  rw [exec_decTemp_of_idle hp, responds_respond_iff] at hdec
  rw [step_of_read_answered hs hr hin, ← hdec]
  exact responds_respond { s with inputs := rest } _

/-! ## CONFIGURE with every write answered Ok (R76, R132, R133) -/

section Answered

variable {s : State} {v : ValidConfig} {k : Fin 6} {r : TRsp} {rest : List Stimulus} (hs : s.seq = .cfgWait v k)
  (hr : r.ok = true) (hin : s.inputs = .answer r :: rest)
include hs hr hin

theorem step_of_write_answered {k' : Fin 6} (hk : nextWrite k = some k') :
    step s = .next (State.emit (configWrite v k') (.cfgWait v k') { s with inputs := rest }) := by
  rw [step_of_answer hin]
  simp [State.takeAnswer, State.takeAnswerIn, hs, hr, hk, configWriteIn_fqCode]

theorem step_of_last_write_answered (hk : nextWrite k = none) :
    step s = .next (State.respond (.ok .unit) { s with inputs := rest }) := by
  rw [step_of_answer hin]
  simp [State.takeAnswer, State.takeAnswerIn, hs, hr, hk]

end Answered

/-- The writes after write `k` begin with the next one. -/
theorem configWrites_drop_of_nextWrite (v : ValidConfig) {k k' : Fin 6} (h : nextWrite k = some k') :
    (configWrites v).drop (k.val + 1) = configWrite v k' :: (configWrites v).drop (k'.val + 1) := by
  rw [← nextWrite_eq_some.1 h, List.drop_eq_getElem_cons (by simp [configWrites]), List.cons.injEq]
  exact ⟨List.getElem_ofFn _, rfl⟩

/-- From write `k` on: the later writes in their order, then Ok. -/
theorem observe_cfgWait_of_oks {v : ValidConfig} {rest : List Stimulus} (as : List TRsp) (hok : ∀ r ∈ as, r.ok = true)
    {s : State} {k : Fin 6} (hs : s.seq = .cfgWait v k) (hin : s.inputs = as.map .answer ++ rest)
    (hlen : k.val + as.length = 6) :
    observe as.length s = ((configWrites v).drop (k.val + 1), some (.ok .unit)) := by
  induction as generalizing s k with
  | nil => exact absurd hlen (by simpa using k.isLt.ne)
  | cons r as ih =>
    have hr : r.ok = true := hok r List.mem_cons_self
    rw [List.length_cons] at hlen ⊢
    cases hk : nextWrite k with
    | none =>
      obtain rfl := nextWrite_eq_none.1 hk
      rw [observe_succ_of_rsp (step_of_last_write_answered hs hr hin hk) (respond_rsp _ _)]
      rfl
    | some k' =>
      have hk' := nextWrite_eq_some.1 hk
      rw [observe_succ_of_no_rsp (step_of_write_answered hs hr hin hk) (emit_rsp _ _ _),
        ih (fun r h => hok r (List.mem_cons_of_mem _ h)) rfl rfl (by omega), configWrites_drop_of_nextWrite v hk]
      rfl

/-- A CONFIGURE whose record passes and whose writes are all answered Ok: the six writes, then Ok. -/
theorem observe_configure_of_oks {s : State} {m : ReqPorts} {c : DeviceConfig} {v : ValidConfig} {as : List TRsp}
    {rest : List Stimulus} (hs : s.seq = .idle) (hm : decode m = .configure c) (hv : validate c = .ok v)
    (hlen : as.length = 6) (hok : ∀ r ∈ as, r.ok = true) (hin : s.inputs = .request m :: (as.map .answer ++ rest)) :
    observe 7 s = (configWrites v, some (.ok .unit)) := by
  have hstep := step_of_request hin
  rw [hm, exec_configure,
    execConfigureIn_of_ok fqCode (s := { s with inputs := as.map .answer ++ rest }) hs hv] at hstep
  have hlater := observe_cfgWait_of_oks
    (s := State.emit (configWrite v 0) (.cfgWait v 0) { s with inputs := as.map .answer ++ rest }) as hok rfl rfl
    (by rw [hlen]; rfl)
  rw [hlen] at hlater
  rw [observe_succ_of_no_rsp hstep (emit_rsp _ _ _), configWriteIn_fqCode, hlater]
  rfl

/-- Settles O36: what each encoder answers is the data of its writes. -/
theorem configureIsTheCompositionOfTheEncoders : Obligations.ConfigureIsTheCompositionOfTheEncoders := by
  intro s p m c as rest hs hp hm hvalid hlen hok hin
  obtain ⟨v, hv⟩ := validate_ok_of_responds hp hvalid
  obtain ⟨haddr, -⟩ := validate_ok_fields hv
  rw [exec_encCfg_of_ok hp hv, exec_encHyst_of_ok hp hv, exec_encOs_of_ok hp hv, exec_encIdle_of_ok hp hv,
    observe_configure_of_oks hs hm hv hlen hok hin, ← haddr]
  exact ⟨_, _, _, _, responds_respond p _, responds_respond p _, responds_respond p _, responds_respond p _, rfl⟩

end Sys2Proof.Machine
end

section
/-! PROOFS. The validator (40_validator.md): VALIDATE at an idle block, check by check. -/

namespace Sys2Proof.Machine

/-- Settles O12: a legal record passes the gate, and behind it VALIDATE gives Ok and nothing else. -/
theorem validateAnswersOkOnLegalRecords : Obligations.ValidateAnswersOkOnLegalRecords := by
  intro c s hs hc
  obtain ⟨v, hv⟩ := validate_of_legal hc
  rw [exec_validate_of_ok hs hv]
  exact responds_respond s _

/-! ## The five checks, one for each field (R73, R90, R96) -/

/-- The check of one field passes (R91 to R95). -/
def fieldLegal (c : DeviceConfig) : Field → Bool
  | .address => c.addressLegal Config.addrSet
  | .operatingMode => c.operatingModeLegal
  | .alertMode => c.alertModeLegal
  | .alertPolarity => c.alertPolarityLegal
  | .faultQueueLength => c.faultQueueLegal

theorem legal_iff_fieldLegal {c : DeviceConfig} : c.legal = true ↔ ∀ f, fieldLegal c f = true := by
  simp only [DeviceConfig.legal, DeviceConfig.legalIn, Bool.and_eq_true]
  constructor
  · rintro ⟨⟨⟨⟨haddr, hop⟩, hmode⟩, hpol⟩, hfq⟩ f
    cases f <;> assumption
  · exact fun h => ⟨⟨⟨⟨h .address, h .operatingMode⟩, h .alertMode⟩, h .alertPolarity⟩, h .faultQueueLength⟩

theorem violIn_checkBit (c : DeviceConfig) (f : Field) :
    (violIn Config.addrSet c).getLsbD (checkBit f) = !fieldLegal c f := by
  obtain ⟨haddr, hop, hmode, hpol, hfq⟩ := violIn_bits Config.addrSet c
  cases f <;> assumption

/-- Every bit of a `viol` vector is the bit of a check. -/
theorem viol_ext {x y : BitVec 5} (h : ∀ f, x.getLsbD (checkBit f) = y.getLsbD (checkBit f)) : x = y :=
  BitVec.eq_of_getLsbD_eq fun
    | 0, _ => h .address
    | 1, _ => h .operatingMode
    | 2, _ => h .alertMode
    | 3, _ => h .alertPolarity
    | 4, _ => h .faultQueueLength

/-- The bits of the five checks are five different bits. -/
theorem twoPow_checkBit (f g : Field) : (BitVec.twoPow 5 (checkBit f)).getLsbD (checkBit g) = decide (g = f) := by
  cases f <;> cases g <;> rfl

theorem firstField_twoPow_checkBit (f : Field) : firstField (BitVec.twoPow 5 (checkBit f)) = f := by cases f <;> rfl

/-- When one check alone fails, its bit is the whole of `viol`. -/
theorem violIn_of_only_violation {c : DeviceConfig} {f : Field} (hf : fieldLegal c f = false)
    (others : ∀ g ≠ f, fieldLegal c g = true) : violIn Config.addrSet c = BitVec.twoPow 5 (checkBit f) := by
  refine viol_ext fun g => ?_
  rw [violIn_checkBit, twoPow_checkBit]
  by_cases hg : g = f
  · simp [hg, hf]
  · simp [hg, others g hg]

/-- VALIDATE of a record in which at most one check fails: Ok, or the ConfigError of that check alone (R90, D8). -/
theorem responds_validate_of_others_legal {c : DeviceConfig} {s : State} {f : Field} {member : Prop} [Decidable member]
    (hs : s.seq = .idle) (others : ∀ g ≠ f, fieldLegal c g = true) (hmember : fieldLegal c f = true ↔ member) :
    if member then Responds (exec (.validate c) s) s.inputs (.ok .unit)
    else Responds (exec (.validate c) s) s.inputs (.configError f (BitVec.twoPow 5 (checkBit f))) := by
  split_ifs with hm
  · refine validateAnswersOkOnLegalRecords c s hs (legal_iff_fieldLegal.2 fun g => ?_)
    by_cases hg : g = f
    · exact hg ▸ hmember.2 hm
    · exact others g hg
  · have hf : ¬ fieldLegal c f = true := hmember.not.2 hm
    have hv := validate_of_illegal (Bool.eq_false_iff.2 fun hc => hf (legal_iff_fieldLegal.1 hc f))
    rw [violIn_of_only_violation (Bool.eq_false_iff.2 hf) others, firstField_twoPow_checkBit] at hv
    rw [exec_formatC_of_violation hs hv (.head _)]
    exact responds_respond s _

/-! ## The address codes (R91) -/

theorem mem_addrSet_iff {a : Byte} :
    a ∈ Config.addrSet ↔ (∃ i : Fin 27, Config.addrTable8[i] = a) ∨ ∃ i : Fin 3, Config.addrTable6[i] = a := by
  rw [Config.addrSet, List.mem_append, Vector.mem_toList_iff, Vector.mem_toList_iff, Vector.mem_iff_getElem,
    Vector.mem_iff_getElem, Fin.exists_iff, Fin.exists_iff]
  rfl

/-- The 6-pin codes are the first three 8-pin codes. -/
theorem addrTable6_getElem (i : Fin 3) : Config.addrTable6[i] = Config.addrTable8[i.val] := Vector.getElem_ofFn _

/-- The 6-pin codes add no byte to the 27 of the 8-pin package. -/
theorem addrSet_card_le : Config.addrSet.toFinset.card ≤ 27 := by
  have hsub : Config.addrSet.toFinset ⊆ Config.addrTable8.toList.toFinset := by
    intro a ha
    rw [List.mem_toFinset, mem_addrSet_iff] at ha
    rw [List.mem_toFinset, Vector.mem_toList_iff]
    obtain ⟨i, rfl⟩ | ⟨i, rfl⟩ := ha
    · exact Vector.getElem_mem i.isLt
    · exact addrTable6_getElem i ▸ Vector.getElem_mem _
  calc Config.addrSet.toFinset.card
      ≤ Config.addrTable8.toList.toFinset.card := Finset.card_le_card hsub
    _ ≤ Config.addrTable8.toList.length := List.toFinset_card_le _
    _ = 27 := Vector.length_toList

theorem card_not_mem_addrSet : 229 ≤ (Finset.univ.filter fun a : Byte => a ∉ Config.addrSet).card := by
  have hcompl : (Finset.univ.filter fun a : Byte => a ∉ Config.addrSet) = Config.addrSet.toFinsetᶜ := by
    ext a
    simp
  have hcard : Fintype.card Byte = 2 ^ 8 := FinEnum.card_eq_fintypeCard.symm
  have hle := addrSet_card_le
  rw [hcompl, Finset.card_compl, hcard]
  omega

/-- Settles O14: the other four checks pass, so the address alone decides, and its check is membership of the two tables. -/
theorem addressCheckIsMembershipOfTheCodes : Obligations.AddressCheckIsMembershipOfTheCodes := by
  refine ⟨fun c s hs hop hmode hpol hfq => ?_, addrTable6_getElem, addrSet_card_le, card_not_mem_addrSet⟩
  have others : ∀ g ≠ Field.address, fieldLegal c g = true := by
    intro g hg
    cases g with
    | address => exact absurd rfl hg
    | operatingMode | alertMode | alertPolarity | faultQueueLength => assumption
  have answer := responds_validate_of_others_legal hs others (member := c.address ∈ Config.addrSet) List.contains_iff_mem
  rw [← mem_addrSet_iff]
  constructor
  · intro ha
    rwa [if_pos ha] at answer
  · intro ha
    rw [if_neg ha] at answer
    exact ⟨_, answer⟩

/-! ## The enumerated fields (R92 to R95) -/

/-- The record with one checked field replaced. -/
def setField (c : DeviceConfig) (b : Byte) : Field → DeviceConfig
  | .address => { c with address := b }
  | .operatingMode => { c with operatingMode := b }
  | .alertMode => { c with alertMode := b }
  | .alertPolarity => { c with alertPolarity := b }
  | .faultQueueLength => { c with faultQueueLength := b }

/-- Each check reads its own field only. -/
theorem fieldLegal_setField_of_ne (c : DeviceConfig) (b : Byte) {f g : Field} (h : g ≠ f) :
    fieldLegal (setField c b f) g = fieldLegal c g := by
  cases f <;> cases g <;> try contradiction
  all_goals rfl

theorem fieldLegal_setField_of_legal {c : DeviceConfig} (hc : c.legal = true) (b : Byte) (f : Field) :
    ∀ g ≠ f, fieldLegal (setField c b f) g = true := fun g hg =>
  (fieldLegal_setField_of_ne c b hg).trans (legal_iff_fieldLegal.1 hc g)

/-- Settles O15: the record with the value in place is legal but for that field, whose check is its list of members. -/
theorem enumeratedChecksPassExactlyAtTheirMembers : Obligations.EnumeratedChecksPassExactlyAtTheirMembers := by
  intro c s b hs hc
  have others := fieldLegal_setField_of_legal hc b
  refine ⟨responds_validate_of_others_legal hs (others .operatingMode) ?_,
    responds_validate_of_others_legal hs (others .alertMode) ?_,
    responds_validate_of_others_legal hs (others .alertPolarity) ?_,
    responds_validate_of_others_legal hs (others .faultQueueLength) ?_⟩
  · simp [fieldLegal, DeviceConfig.operatingModeLegal]
  · simp [fieldLegal, DeviceConfig.alertModeLegal]
  · simp [fieldLegal, DeviceConfig.alertPolarityLegal]
  · simp [fieldLegal, DeviceConfig.faultQueueLegal, or_assoc]

end Sys2Proof.Machine
end

section
/-! PROOFS. The register images (41_encoders.md): what ENC_CFG and ENC_IDLE answer under their masks (R101, R108), which
bytes are configuration images (R102), and the limit and the idle image as numbers (R104, R105, R109). -/

namespace Sys2Proof.Machine

/-- A vector is its high part over its low part. -/
theorem append_lowPart_eq_self {m n : Nat} (x : BitVec (m + n)) :
    BitVec.extractLsb' n m x ++ BitVec.extractLsb' 0 n x = x :=
  (BitVec.extractLsb'_append_extractLsb'_eq_extractLsb' n.zero_add.symm).trans BitVec.extractLsb'_eq_self

/-! ## The masks of R101 and R108 -/

/-- As a number, the AND with 0x1F is the remainder modulo 32. -/
theorem and_mask_toNat (b : Byte) : (b &&& 0x1F#8).toNat = b.toNat % 32 := Nat.and_two_pow_sub_one_eq_mod b.toNat 5

/-- The AND with 0x1F keeps the low five bits. -/
theorem and_mask_eq_append (b : Byte) : b &&& 0x1F#8 = (0b000#3 ++ BitVec.extractLsb' 0 5 b : Byte) := by
  apply BitVec.eq_of_toNat_eq
  rw [and_mask_toNat, BitVec.toNat_append, BitVec.extractLsb'_toNat]
  simp

/-! ## ENC_CFG answers the packed byte (R101) -/

/-- Bit 0 of a port that passes its check is the field's bit in the image (R66). -/
theorem operatingMode_bitZero {b : Byte} {m : OperatingMode} (h : readOperatingMode b = some m) :
    BitVec.extractLsb' 0 1 b = sdBit m := by
  unfold readOperatingMode at h
  split_ifs at h <;> cases h <;> subst b <;> rfl

theorem alertMode_bitZero {b : Byte} {m : AlertMode} (h : readAlertMode b = some m) :
    BitVec.extractLsb' 0 1 b = modeBit m := by
  unfold readAlertMode at h
  split_ifs at h <;> cases h <;> subst b <;> rfl

theorem alertPolarity_bitZero {b : Byte} {p : AlertPolarity} (h : readAlertPolarity b = some p) :
    BitVec.extractLsb' 0 1 b = polBit p := by
  unfold readAlertPolarity at h
  split_ifs at h <;> cases h <;> subst b <;> rfl

/-- The packed byte of R101 is the weighted sum of its fields. -/
theorem packedByte_toNat : ∀ (q : BitVec 2) (pol mode sd : BitVec 1),
    (0b000#3 ++ q ++ pol ++ mode ++ sd : Byte).toNat = q.toNat * 8 + pol.toNat * 4 + mode.toNat * 2 + sd.toNat := by
  decide

/-- Settles O17: behind the gate the ports' low bits are the fields' bits, so the answer is the packing of the ports; its
number is that of the packed byte under the mask. -/
theorem encCfgPacksAndMasks : Obligations.EncCfgPacksAndMasks := by
  intro c v s hs hv
  obtain ⟨-, -, -, -, -, hfq, hpol, hmode, hop⟩ := validate_ok_fields hv
  have answer (fq : FqTable) : Responds (execEncCfgIn fq c s) s.inputs (.ok (.data8
      ((0b000#3 ++ fq v.faultQueueLength ++ BitVec.extractLsb' 0 1 c.alertPolarity ++ BitVec.extractLsb' 0 1 c.alertMode ++
        BitVec.extractLsb' 0 1 c.operatingMode) &&& 0x1F#8))) := by
    rw [execEncCfgIn_of_ok fq hs hv, operatingMode_bitZero hop, alertMode_bitZero hmode, alertPolarity_bitZero hpol]
    exact responds_respond s _
  refine ⟨v.faultQueueLength, hfq, answer fqCode, fun fq => ⟨answer fq, ?_⟩⟩
  rw [and_mask_toNat, packedByte_toNat]

/-! ## The configuration image is a bijection onto the bytes below 32 (R102) -/

/-- An enumeration of two members, coded 0 and 1, is one bit. -/
theorem bijective_of_two_members {α : Type} {f : α → BitVec 1} {a b : α} (members : ∀ x, x = a ∨ x = b)
    (ha : f a = 0#1) (hb : f b = 1#1) : Function.Bijective f := by
  constructor
  · intro x y hxy
    obtain rfl | rfl := members x <;> obtain rfl | rfl := members y <;> simp_all
  · intro c
    obtain rfl | rfl := c.eq_zero_or_eq_one
    · exact ⟨a, ha⟩
    · exact ⟨b, hb⟩

theorem sdBit_bijective : Function.Bijective sdBit :=
  bijective_of_two_members (a := .normal) (b := .shutdown) (by rintro ⟨⟩ <;> simp) rfl rfl

theorem modeBit_bijective : Function.Bijective modeBit :=
  bijective_of_two_members (a := .comparator) (b := .interrupt) (by rintro ⟨⟩ <;> simp) rfl rfl

theorem polBit_bijective : Function.Bijective polBit :=
  bijective_of_two_members (a := .activeLow) (b := .activeHigh) (by rintro ⟨⟩ <;> simp) rfl rfl

theorem fqCode_surjective : Function.Surjective fqCode := by
  have codes : ∀ code : BitVec 2, code = 0b00#2 ∨ code = 0b01#2 ∨ code = 0b10#2 ∨ code = 0b11#2 := by decide
  intro code
  obtain rfl | rfl | rfl | rfl := codes code
  · exact ⟨.one, rfl⟩
  · exact ⟨.two, rfl⟩
  · exact ⟨.four, rfl⟩
  · exact ⟨.six, rfl⟩

/-- There are as many lengths as codes, by the default table, so a table that is injective uses every code. -/
theorem fqTable_surjective {fq : FqTable} (hfq : Function.Injective fq) : Function.Surjective fq :=
  have : Finite FaultQueueLength := .of_injective fq hfq
  hfq.surjective_of_finite (.ofBijective fqCode ⟨fqCode_injective, fqCode_surjective⟩)

/-- Bits 2, 1 and 0 of the image are the codes of the two-valued fields (R66). -/
theorem configImageIn_flagBits (fq : FqTable) (v : ValidConfig) :
    BitVec.extractLsb' 2 1 (configImageIn fq v) = polBit v.alertPolarity ∧
      BitVec.extractLsb' 1 1 (configImageIn fq v) = modeBit v.alertMode ∧
      BitVec.extractLsb' 0 1 (configImageIn fq v) = sdBit v.operatingMode := by
  have slices : ∀ (q : BitVec 2) (p m d : BitVec 1),
      BitVec.extractLsb' 2 1 (0b000#3 ++ q ++ p ++ m ++ d) = p ∧
        BitVec.extractLsb' 1 1 (0b000#3 ++ q ++ p ++ m ++ d) = m ∧
        BitVec.extractLsb' 0 1 (0b000#3 ++ q ++ p ++ m ++ d) = d := by decide
  rw [configImageIn_eq_fields]
  exact slices _ _ _ _

/-- A byte below 32 is its own bits 4:3, 2, 1 and 0 under three zeros. -/
theorem eq_packedByte_of_lt : ∀ b : Byte, b.toNat < 32 →
    b = (0b000#3 ++ BitVec.extractLsb' 3 2 b ++ BitVec.extractLsb' 2 1 b ++ BitVec.extractLsb' 1 1 b ++
      BitVec.extractLsb' 0 1 b : Byte) := by
  decide

theorem configImageIn_lt (fq : FqTable) (v : ValidConfig) : (configImageIn fq v).toNat < 32 :=
  (and_mask_toNat _).trans_lt (Nat.mod_lt _ (by decide))

theorem exists_configImageIn_eq {fq : FqTable} (hfq : Function.Injective fq) {b : Byte} (hb : b.toNat < 32) :
    ∃ v, configImageIn fq v = b := by
  obtain ⟨q, hq⟩ := fqTable_surjective hfq (BitVec.extractLsb' 3 2 b)
  obtain ⟨p, hp⟩ := polBit_bijective.surjective (BitVec.extractLsb' 2 1 b)
  obtain ⟨m, hm⟩ := modeBit_bijective.surjective (BitVec.extractLsb' 1 1 b)
  obtain ⟨d, hd⟩ := sdBit_bijective.surjective (BitVec.extractLsb' 0 1 b)
  refine ⟨⟨0, 0, 0, 0, q, p, m, d⟩, ?_⟩
  rw [configImageIn_eq_fields, hq, hp, hm, hd, ← eq_packedByte_of_lt b hb]

theorem fields_eq_of_configImageIn_eq {fq : FqTable} (hfq : Function.Injective fq) {v w : ValidConfig}
    (h : configImageIn fq v = configImageIn fq w) :
    v.faultQueueLength = w.faultQueueLength ∧ v.alertPolarity = w.alertPolarity ∧ v.alertMode = w.alertMode ∧
      v.operatingMode = w.operatingMode := by
  have hcode := configImageIn_codeBits fq v
  obtain ⟨hpol, hmode, hsd⟩ := configImageIn_flagBits fq v
  obtain ⟨hpol', hmode', hsd'⟩ := configImageIn_flagBits fq w
  rw [h] at hcode hpol hmode hsd
  exact ⟨hfq (hcode.symm.trans (configImageIn_codeBits fq w)), polBit_bijective.injective (hpol.symm.trans hpol'),
    modeBit_bijective.injective (hmode.symm.trans hmode'), sdBit_bijective.injective (hsd.symm.trans hsd')⟩

/-- Settles O19: the five low bits are the codes of the four fields, and each code is a bijection. -/
theorem configurationImageIsABijection : Obligations.ConfigurationImageIsABijection := by
  refine ⟨fqCode_injective, fun fq hfq => ⟨fun b => ⟨exists_configImageIn_eq hfq, ?_⟩, fun v w =>
    fields_eq_of_configImageIn_eq hfq⟩⟩
  rintro ⟨v, rfl⟩
  exact configImageIn_lt fq v

/-! ## The idle image (R107 to R109) -/

/-- Settles O22: the captured idle field is the record's own, and the mask keeps its low five bits. -/
theorem encIdleMasksToFiveBits : Obligations.EncIdleMasksToFiveBits := by
  intro c v s hs hv
  obtain ⟨-, -, -, -, hidle, -⟩ := validate_ok_fields hv
  refine ⟨?_, and_mask_eq_append _, and_mask_toNat _⟩
  rw [exec_encIdle_of_ok hs hv, hidle]
  exact responds_respond s _

theorem idleImage_toNat (t : Byte) : (idleImage t).toNat = t.toNat % 32 := and_mask_toNat t

theorem idleImage_of_lt {t : Byte} (ht : t.toNat < 32) : idleImage t = t :=
  BitVec.eq_of_toNat_eq ((idleImage_toNat t).trans (Nat.mod_eq_of_lt ht))

theorem idleImage_eq_append (t : Byte) : idleImage t = (0b000#3 ++ BitVec.extractLsb' 0 5 t : Byte) := and_mask_eq_append t

/-- The bytes with one image differ in the three bits that the mask clears. -/
theorem idleImage_eq_iff {b : Byte} (hb : b.toNat < 32) (t : Byte) :
    idleImage t = b ↔ ∃ high : BitVec 3, (high ++ BitVec.extractLsb' 0 5 b : Byte) = t := by
  constructor
  · rintro rfl
    refine ⟨BitVec.extractLsb' 5 3 t, ?_⟩
    rw [idleImage_eq_append, BitVec.extractLsb'_append_eq_right]
    exact append_lowPart_eq_self (m := 3) (n := 5) t
  · rintro ⟨high, rfl⟩
    rw [idleImage_eq_append, BitVec.extractLsb'_append_eq_right, ← idleImage_eq_append, idleImage_of_lt hb]

theorem card_idleImage_eq {b : Byte} (hb : b.toNat < 32) :
    (Finset.univ.filter fun t : Byte => idleImage t = b).card = 8 := by
  have fibre : (Finset.univ.filter fun t : Byte => idleImage t = b) =
      Finset.univ.image fun high : BitVec 3 => (high ++ BitVec.extractLsb' 0 5 b : Byte) := by
    ext t
    simp [idleImage_eq_iff hb]
  rw [fibre, Finset.card_image_of_injective _ fun _ _ => (BitVec.append_left_inj _).1]
  rfl

/-- Settles O23: the mask clears three bits, so eight inputs share an image, and it keeps what is below 32, every image
included. -/
theorem idleImageIsEightToOne : Obligations.IdleImageIsEightToOne := by
  refine ⟨fun b => card_idleImage_eq, fun t => idleImage_of_lt, fun t => idleImage_of_lt ?_⟩
  rw [idleImage_toNat]
  exact Nat.mod_lt _ (by decide)

/-! ## The limit image as a number (R104, R105) -/

theorem limitImage_toInt (d : Count9) : (limitImage d).toInt = 128 * d.toInt := by
  rw [limitImage_eq_append, BitVec.toInt_append_zero]
  rfl

theorem extractLsb'_limitImage (d : Count9) : BitVec.extractLsb' 7 9 (limitImage d) = d := by
  rw [limitImage_eq_append, BitVec.extractLsb'_append_eq_left]

/-- Bit 0 of a count is its parity, the sign's weight being even. -/
theorem two_dvd_toInt_iff (d : Count9) : 2 ∣ d.toInt ↔ BitVec.extractLsb' 0 1 d = 0#1 := by
  rw [← BitVec.toNat_inj, BitVec.extractLsb'_toNat, BitVec.toInt_eq_toNat_cond, Nat.shiftRight_zero, BitVec.toNat_zero]
  split <;> omega

theorem lsbOf_limitImage_eq_ite (d : Count9) : lsbOf (limitImage d) = if 2 ∣ d.toInt then 0x00#8 else 0x80#8 := by
  rw [lsbOf_limitImage]
  obtain h | h := (BitVec.extractLsb' 0 1 d).eq_zero_or_eq_one <;> simp [two_dvd_toInt_iff, h]

theorem lowBits_eq_zero_iff_exists_limitImage (h : Half) : BitVec.extractLsb' 0 7 h = 0#7 ↔ ∃ d, limitImage d = h := by
  constructor
  · intro hz
    refine ⟨BitVec.extractLsb' 7 9 h, ?_⟩
    rw [limitImage_eq_append, ← hz]
    exact append_lowPart_eq_self (m := 9) (n := 7) h
  · rintro ⟨d, rfl⟩
    rw [limitImage_eq_append, BitVec.extractLsb'_append_eq_right]

/-- Settles O21: the image is the count over seven zeros. -/
theorem limitImageIs128TimesTheCount : Obligations.LimitImageIs128TimesTheCount :=
  ⟨fun d => ⟨limitImage_toInt d, extractLsb'_limitImage d, lsbOf_limitImage_eq_ite d⟩,
    lowBits_eq_zero_iff_exists_limitImage⟩

end Sys2Proof.Machine
end

section
/-! PROOFS. The temperature decoder (42_decoder.md): the count split into its two bytes, the decode as an integer quotient, and
the two roundings of the note on D11 side by side (R121, R123 to R125). -/

namespace Sys2Proof.Machine

/-! ## The count and its two bytes (R70, R121) -/

/-- The high byte is the signed whole degrees, bits 7:5 of the low byte the eighths above them. -/
theorem nativeCount_eq_eighths (msb lsb : Byte) :
    nativeCount msb lsb = 8 * msb.toInt + (BitVec.extractLsb' 5 3 lsb).toNat := by
  rw [nativeCount_eq_append, BitVec.toInt_append]
  rfl

theorem nativeCount_bounds (msb lsb : Byte) : -1024 ≤ nativeCount msb lsb ∧ nativeCount msb lsb ≤ 1023 :=
  ⟨BitVec.le_toInt _, Int.le_of_lt_add_one BitVec.toInt_lt⟩

/-- Bit 7 of the high byte is the sign of the count. -/
theorem msb_bitSeven_iff (msb lsb : Byte) : msb.getLsbD 7 = true ↔ nativeCount msb lsb < 0 := by
  have sign : msb.getLsbD 7 = true ↔ msb.toInt < 0 := by
    rw [← BitVec.msb_eq_getLsbD_last msb, BitVec.msb_eq_toInt, decide_eq_true_iff]
  have fraction := (BitVec.extractLsb' 5 3 lsb).isLt
  rw [sign, nativeCount_eq_eighths]
  omega

/-- Bits 7:5 of the low byte are zero exactly at a whole number of degrees. -/
theorem fractionBits_eq_zero_iff (msb lsb : Byte) : BitVec.extractLsb' 5 3 lsb = 0#3 ↔ 8 ∣ nativeCount msb lsb := by
  have fraction := (BitVec.extractLsb' 5 3 lsb).isLt
  rw [nativeCount_eq_eighths, ← BitVec.toNat_inj, BitVec.toNat_zero]
  omega

/-! ## The two roundings (R121, note on D11) -/

theorem decTempRounded_towardMinusInfinity (msb lsb : Byte) : decTempRounded .towardMinusInfinity msb lsb = msb.toInt := by
  have fraction := (BitVec.extractLsb' 5 3 lsb).isLt
  have quotient : decTempRounded .towardMinusInfinity msb lsb = nativeCount msb lsb / 8 :=
    Int.fdiv_eq_ediv_of_nonneg _ (by decide)
  rw [quotient, nativeCount_eq_eighths]
  omega

theorem decTemp_eq_tdiv (msb lsb : Byte) : decTemp msb lsb = (nativeCount msb lsb).tdiv 8 := rfl

/-- Truncation toward zero is one above the floor exactly on negative counts with a fraction. -/
theorem tdiv_eight_eq_fdiv_add (n : Int) : n.tdiv 8 = n.fdiv 8 + if n < 0 ∧ ¬ 8 ∣ n then 1 else 0 := by
  rw [Int.tdiv_eq_ediv, Int.fdiv_eq_ediv_of_nonneg n (by decide)]
  by_cases h : 0 ≤ n ∨ 8 ∣ n
  · rw [if_pos h, if_neg (by omega)]
  · rw [if_neg h, if_pos (by omega)]
    rfl

/-- The note on D11: where the spec's rounding and the other one differ, in terms of the operands' bits. -/
theorem decTemp_eq_towardMinusInfinity_add (msb lsb : Byte) :
    decTemp msb lsb = decTempRounded .towardMinusInfinity msb lsb +
      if msb.getLsbD 7 = true ∧ BitVec.extractLsb' 5 3 lsb ≠ 0#3 then 1 else 0 := by
  simp only [msb_bitSeven_iff msb lsb, ne_eq, fractionBits_eq_zero_iff msb lsb]
  exact tdiv_eight_eq_fdiv_add (nativeCount msb lsb)

/-- Settles O29: the floor drops the fraction bits, and truncation corrects it on negative counts that have some. -/
theorem otherRoundingIsTheMsb : Obligations.OtherRoundingIsTheMsb := fun msb lsb =>
  ⟨decTempRounded_towardMinusInfinity msb lsb, decTemp_eq_towardMinusInfinity_add msb lsb⟩

/-- Settles O25: the high byte is the other rounding, which truncation corrects. -/
theorem decTempIsMsbPlusACorrection : Obligations.DecTempIsMsbPlusACorrection := by
  intro msb lsb
  rw [decTemp_eq_towardMinusInfinity_add, decTempRounded_towardMinusInfinity]

/-! ## The decode over the counts (R124) -/

/-- The integer quotients that truncate to 127, to -128 and to 0, among the counts. -/
theorem tdiv_eight_extremes {n : Int} (h : -1024 ≤ n ∧ n ≤ 1023) :
    (-128 ≤ n.tdiv 8 ∧ n.tdiv 8 ≤ 127) ∧ (n.tdiv 8 = 127 ↔ 1016 ≤ n) ∧ (n.tdiv 8 = -128 ↔ n = -1024) ∧
      (n.tdiv 8 = 0 ↔ -7 ≤ n ∧ n ≤ 7) := by
  obtain hn | hn := Int.le_total 0 n
  · have quotient := Int.tdiv_eq_ediv_of_nonneg (b := 8) hn
    omega
  · have quotient : n.tdiv 8 = -(-n / 8) := by
      rw [← Int.tdiv_eq_ediv_of_nonneg (by omega), Int.neg_tdiv, neg_neg]
    omega

theorem decTemp_bounds (msb lsb : Byte) : -128 ≤ decTemp msb lsb ∧ decTemp msb lsb ≤ 127 :=
  (tdiv_eight_extremes (nativeCount_bounds msb lsb)).1

/-- With no fraction bits the decode is the high byte, so every signed byte is taken. -/
theorem decTemp_wholeDegrees (msb : Byte) : decTemp msb 0 = msb.toInt := by
  rw [decTempIsMsbPlusACorrection, if_neg fun h => h.2 rfl, add_zero]

/-- `to_s8` of R11 loses nothing on the range of a signed byte. -/
theorem toInt_toS8 {i : Int} (hlo : -128 ≤ i) (hhi : i ≤ 127) : (toS8 i).toInt = i :=
  BitVec.toInt_ofInt_eq_self (by decide) hlo (by omega)

/-- Settles O26: the decode is the truncated quotient of the count, which is monotonic and odd. -/
theorem decTempRangeOrderAndSymmetry : Obligations.DecTempRangeOrderAndSymmetry := by
  refine ⟨fun msb lsb => tdiv_eight_extremes (nativeCount_bounds msb lsb), fun m l m' l' h => ?_, fun m l m' l' h => ?_,
    fun i hlo hhi => ?_⟩
  · exact Int.tdiv_le_tdiv (by decide) h
  · rw [decTemp_eq_tdiv, h, Int.neg_tdiv, decTemp_eq_tdiv]
  · exact ⟨toS8 i, 0, (decTemp_wholeDegrees _).trans (toInt_toS8 hlo hhi)⟩

/-! ## The decode as a rational rounded (R11, R121, R125) -/

/-- `trunc0` of a ratio of integers is the truncated quotient. -/
theorem trunc0_intCast_div_natCast (n : Int) {d : Nat} (hd : 0 < d) : trunc0 ((n : ℚ) / d) = n.tdiv d := by
  have sign : 0 ≤ (n : ℚ) / d ↔ 0 ≤ n := by rw [le_div_iff₀ (Nat.cast_pos.2 hd), zero_mul, Int.cast_nonneg_iff]
  unfold trunc0
  obtain hn | hn := lt_or_ge n 0
  · rw [if_neg (by rw [sign]; omega), Rat.ceil_intCast_div_natCast, ← Int.tdiv_eq_ediv_of_nonneg (by omega), Int.neg_tdiv,
      neg_neg]
  · rw [if_pos (sign.2 hn), Rat.floor_intCast_div_natCast, Int.tdiv_eq_ediv_of_nonneg hn]

theorem decTemp_eq_trunc0 (msb lsb : Byte) : decTemp msb lsb = trunc0 ((nativeCount msb lsb : ℚ) * (1 / 8)) := by
  rw [mul_one_div]
  exact (trunc0_intCast_div_natCast _ (d := 8) (by decide)).symm

/-- Settles O24: the response holds the decode as a signed byte, and the decode is in a byte's range. -/
theorem decTempTruncatesTowardZero : Obligations.DecTempTruncatesTowardZero := by
  intro msb lsb s hs
  refine ⟨toS8 (decTemp msb lsb), exec_decTemp_of_idle hs msb lsb ▸ responds_respond s _, ?_⟩
  obtain ⟨hlo, hhi⟩ := decTemp_bounds msb lsb
  rw [toInt_toS8 hlo hhi, decTemp_eq_trunc0]
  rfl

theorem tempWord_msbOf_lsbOf (h : Half) : tempWord (msbOf h) (lsbOf h) = h := append_lowPart_eq_self (m := 8) (n := 8) h

/-- A limit count is in half degrees, four times the eighths of the reading. -/
theorem nativeCount_limitImage (d : Count9) :
    nativeCount (msbOf (limitImage d)) (lsbOf (limitImage d)) = 4 * d.toInt := by
  have field : BitVec.extractLsb' tempShift 11 (limitImage d) = (d ++ 0#2 : BitVec 11) := by
    rw [limitImage_eq_append, tempShift]
    ext i hi
    grind
  rw [nativeCount, tempWord_msbOf_lsbOf, field, BitVec.toInt_append_zero]
  rfl

/-- Settles O28: four times the count over eight is the count over two. -/
theorem decodedLimitImageIsTheLimitInDegrees : Obligations.DecodedLimitImageIsTheLimitInDegrees := by
  intro d
  calc decTemp (msbOf (limitImage d)) (lsbOf (limitImage d))
    _ = (4 * d.toInt).tdiv (4 * 2) := by rw [decTemp_eq_tdiv, nativeCount_limitImage]; rfl
    _ = d.toInt.tdiv 2 := Int.mul_tdiv_mul_of_pos _ _ (by decide)
    _ = trunc0 ((d.toInt : ℚ) / 2) := (trunc0_intCast_div_natCast _ (d := 2) (by decide)).symm

end Sys2Proof.Machine
end

section
/-! PROOFS. The operations that drive the transport (43_sequences.md): what starts CONFIGURE and READ_TEMP and what an
answer does to them (R131 to R134, R141 to R144), and all that is seen of either until a reset (R135 to R137, R142). -/

namespace Sys2Proof.Machine

/-! ## One step of an operation in flight -/

section InFlight

variable {s : State} {es : List Stimulus} (hs : s.seq ≠ .idle)
include hs

/-- A failed answer ends CONFIGURE and READ_TEMP alike (R134, R144). -/
theorem step_of_failed_answer {r : TRsp} (hr : r.ok = false) (hin : s.inputs = .answer r :: es) :
    step s = .next (State.respond (.ioError r.err) { s with inputs := es }) := by
  rw [step_of_answer hin]
  obtain ⟨hidle, -⟩ | ⟨_, _, _, -, hok, -⟩ | ⟨_, -, hok, -⟩ | ⟨-, hok, -⟩ | ⟨-, -, h⟩ :=
    takeAnswer_cases r { s with inputs := es }
  · exact absurd hidle hs
  · simp [hr] at hok
  · simp [hr] at hok
  · simp [hr] at hok
  · rw [h]

/-- A step that takes a request shows nothing and leaves the operation in flight as it was. -/
theorem observe_of_request_in_flight {m : ReqPorts} (hin : s.inputs = .request m :: es) (n : Nat) :
    observe (n + 1) s = observe n { s with inputs := es } := by
  have hstep := (step_of_request hin).trans (exec_of_busy (decode m) (s := { s with inputs := es }) hs)
  rw [observe_succ_of_no_rsp hstep (quiet_rsp _)]
  exact observe_congr (quiet_seq _) (quiet_inputs _) n

end InFlight

/-! ## CONFIGURE, step by step (R131, R133, R134) -/

/-- Settles O31: the gate answers before write 0 is issued, and after an Ok answer there is a further write or the response
Ok. -/
theorem configureValidatesFirstAndOnce : Obligations.ConfigureValidatesFirstAndOnce := by
  refine ⟨fun c f viol s hs hv => ?_, fun v k r s rest hs hr hin t f viol ht => ?_⟩
  · rw [exec_formatC_of_violation hs hv (by simp)]
    exact responds_respond s _
  · cases hk : nextWrite k with
    | none =>
      obtain rfl := Host.Outcome.next.inj ((step_of_last_write_answered hs hr hin hk).symm.trans ht)
      simp
    | some k' =>
      obtain rfl := Host.Outcome.next.inj ((step_of_write_answered hs hr hin hk).symm.trans ht)
      simp

/-- Settles O32, by the answer: Ok to a write before the last, Ok to the last, a failed one. -/
theorem answersMoveConfigureForward : Obligations.AnswersMoveConfigureForward := by
  intro s v k r rest hs hin
  refine ⟨fun hr k' hk => ?_, fun hr hk => ?_, fun hr => ?_⟩
  · rw [step_of_write_answered hs hr hin (nextWrite_eq_some.2 hk)]
    exact issues_emit { s with inputs := rest } _ _
  · rw [step_of_last_write_answered hs hr hin (nextWrite_eq_none.2 hk)]
    exact responds_respond { s with inputs := rest } _
  · rw [step_of_failed_answer (by simp [hs]) hr hin]
    exact responds_respond { s with inputs := rest } _

/-! ## The answers that have arrived -/

theorem mem_answersOf {r : TRsp} {es : List Stimulus} : r ∈ answersOf es ↔ .answer r ∈ es := by
  induction es with
  | nil => simp [answersOf]
  | cons e es ih => cases e <;> simp_all [answersOf]

theorem leadingOks_cons_of_ok {r : TRsp} (hr : r.ok = true) (as : List TRsp) :
    leadingOks (r :: as) = leadingOks as + 1 := by
  simp [leadingOks, hr]

theorem leadingOks_cons_of_failed {r : TRsp} (hr : r.ok = false) (as : List TRsp) : leadingOks (r :: as) = 0 := by
  simp [leadingOks, hr]

/-- The answer after the leading Ok answers is a failed one. -/
theorem failed_of_getElem?_leadingOks {as : List TRsp} {r : TRsp} (h : as[leadingOks as]? = some r) : r.ok = false := by
  induction as with
  | nil => simp at h
  | cons a as ih =>
    cases ha : a.ok with
    | false =>
      rw [leadingOks_cons_of_failed ha] at h
      obtain rfl : a = r := by simpa using h
      exact ha
    | true =>
      rw [leadingOks_cons_of_ok ha, List.getElem?_cons_succ] at h
      exact ih h

/-! ## How a CONFIGURE ends -/

/-- How a CONFIGURE ends that has issued write `k`, with these answers to come: with Ok once all six writes are answered Ok,
with the IoError of the first failed answer before that, else not at all (R134, R135). -/
def configureEnd (k : Nat) (as : List TRsp) : Option Rsp :=
  if 6 ≤ k + leadingOks as then some (.ok .unit) else as[leadingOks as]?.map fun r => .ioError r.err

theorem configureEnd_of_six_le {k : Nat} {as : List TRsp} (h : 6 ≤ k + leadingOks as) :
    configureEnd k as = some (.ok .unit) := if_pos h

theorem configureEnd_of_lt_six {k : Nat} {as : List TRsp} (h : k + leadingOks as < 6) :
    configureEnd k as = as[leadingOks as]?.map fun r => .ioError r.err := if_neg (by omega)

theorem configureEnd_nil {k : Nat} (h : k < 6) : configureEnd k [] = none := configureEnd_of_lt_six (as := []) h

theorem configureEnd_cons_of_failed {k : Nat} (h : k < 6) {r : TRsp} (hr : r.ok = false) (as : List TRsp) :
    configureEnd k (r :: as) = some (.ioError r.err) := by
  have hl := leadingOks_cons_of_failed hr as
  rw [configureEnd_of_lt_six (by omega), hl]
  rfl

theorem configureEnd_cons_of_ok (k : Nat) {r : TRsp} (hr : r.ok = true) (as : List TRsp) :
    configureEnd k (r :: as) = configureEnd (k + 1) as := by
  simp only [configureEnd, leadingOks_cons_of_ok hr, List.getElem?_cons_succ]
  rw [Nat.add_right_comm, Nat.add_assoc]

/-- Behind the gate an operation has not ended, or ended in one of the two ways R137 allows it. -/
theorem configureEnd_cases (k : Nat) (as : List TRsp) :
    configureEnd k as = none ∨ (6 ≤ k + leadingOks as ∧ configureEnd k as = some (.ok .unit)) ∨
      ∃ r ∈ as, r.ok = false ∧ configureEnd k as = some (.ioError r.err) := by
  obtain h | h := Nat.lt_or_ge (k + leadingOks as) 6
  · rw [configureEnd_of_lt_six h]
    cases hr : as[leadingOks as]? with
    | none => exact .inl rfl
    | some r => exact .inr (.inr ⟨r, List.mem_of_getElem? hr, failed_of_getElem?_leadingOks hr, rfl⟩)
  · exact .inr (.inl ⟨h, configureEnd_of_six_le h⟩)

/-! ## What is seen of a CONFIGURE -/

theorem configWrites_length (v : ValidConfig) : (configWrites v).length = 6 := List.length_ofFn

/-- From write `k` on, in any number of steps without a reset: one more write for each Ok answer, and the end that the answers
give. -/
theorem observe_cfgWait {v : ValidConfig} {k : Fin 6} {s : State} {es : List Stimulus} (hs : s.seq = .cfgWait v k)
    (hin : s.inputs = es) (hreset : Stimulus.reset ∉ es) (n : Nat) :
    observe n s = (((configWrites v).drop (k.val + 1)).take (leadingOks (answersOf (es.take n))),
      configureEnd k.val (answersOf (es.take n))) := by
  induction es generalizing s k n with
  | nil =>
    rw [observe_of_inputs_nil hin, List.take_nil]
    exact congrArg (Prod.mk []) (configureEnd_nil k.isLt).symm
  | cons e es ih =>
    cases n with
    | zero => exact congrArg (Prod.mk []) (configureEnd_nil k.isLt).symm
    | succ n =>
      have hbusy : s.seq ≠ .idle := by simp [hs]
      have hreset' : Stimulus.reset ∉ es := fun h => hreset (List.mem_cons_of_mem e h)
      rw [List.take_succ_cons]
      cases e with
      | request m => rw [observe_of_request_in_flight hbusy hin, answersOf_request,
        ih (s := { s with inputs := es }) hs rfl hreset']
      | answer r =>
        rw [answersOf_answer]
        cases hr : r.ok with
        | false =>
          rw [observe_succ_of_rsp (step_of_failed_answer hbusy hr hin) (respond_rsp _ _), respond_treq,
            leadingOks_cons_of_failed hr, configureEnd_cons_of_failed k.isLt hr]
          rfl
        | true =>
          rw [leadingOks_cons_of_ok hr, configureEnd_cons_of_ok _ hr]
          cases hk : nextWrite k with
          | none =>
            obtain rfl := nextWrite_eq_none.1 hk
            rw [observe_succ_of_rsp (step_of_last_write_answered hs hr hin hk) (respond_rsp _ _), respond_treq,
              configureEnd_of_six_le (k := (5 : Fin 6).val + 1) (Nat.le_add_right 6 _)]
            rfl
          | some k' =>
            rw [observe_succ_of_no_rsp (step_of_write_answered hs hr hin hk) (emit_rsp _ _ _), emit_treq,
              ih rfl rfl hreset', configWrites_drop_of_nextWrite v hk, ← nextWrite_eq_some.1 hk]
            rfl
      | reset => exact absurd List.mem_cons_self hreset

/-- A CONFIGURE whose record passes, in any positive number of steps without a reset. -/
theorem observe_configure {s : State} {m : ReqPorts} {c : DeviceConfig} {v : ValidConfig} {es : List Stimulus}
    (hs : s.seq = .idle) (hm : decode m = .configure c) (hv : validate c = .ok v) (hin : s.inputs = .request m :: es)
    (hreset : Stimulus.reset ∉ es) (n : Nat) :
    observe (n + 1) s = ((configWrites v).take (leadingOks (answersOf (es.take n)) + 1),
      configureEnd 0 (answersOf (es.take n))) := by
  have hstep := step_of_request hin
  rw [hm, exec_configure, execConfigureIn_of_ok fqCode (s := { s with inputs := es }) hs hv] at hstep
  have hlater := observe_cfgWait (s := State.emit (configWrite v 0) (.cfgWait v 0) { s with inputs := es }) rfl rfl hreset n
  rw [observe_succ_of_no_rsp hstep (emit_rsp _ _ _), configWriteIn_fqCode, hlater]
  rfl

/-- Settles O34: every event to come is taken, so the answers are all the answers. -/
theorem configureIsDeterminedByItsAnswers : Obligations.ConfigureIsDeterminedByItsAnswers := by
  intro s m c v es n hs hm hv hin hreset hn
  obtain ⟨n, rfl⟩ := Nat.exists_eq_add_one_of_ne_zero (Nat.ne_zero_of_lt hn)
  have seen := observe_configure hs hm hv hin hreset n
  rw [List.take_of_length_le (Nat.le_of_lt_succ hn)] at seen
  generalize answersOf es = as at seen ⊢
  rw [seen]
  refine ⟨fun h => ?_, fun r h hr => ?_, fun h hr => ?_⟩
  · rw [configureEnd_of_six_le (by omega), List.take_of_length_le (by rw [configWrites_length]; omega)]
  · rw [configureEnd_of_lt_six (by omega), hr]; rfl
  · rw [configureEnd_of_lt_six (by omega), hr]; rfl

/-- Settles O35: the answers are those of the first `n - 1` events to come, and how they end the operation is
`configureEnd_cases`. -/
theorem configureTraceIsAPrefixOfTheSixWrites : Obligations.ConfigureTraceIsAPrefixOfTheSixWrites := by
  intro s m c es n hs hm hin hreset
  refine ⟨fun f viol hv hn => ?_, fun v hv => ?_⟩
  · obtain ⟨n, rfl⟩ := Nat.exists_eq_add_one_of_ne_zero hn.ne'
    have hstep := step_of_request hin
    rw [hm, exec_configure, execConfigureIn_of_violation fqCode (s := { s with inputs := es }) hs hv] at hstep
    rw [observe_succ_of_rsp hstep (respond_rsp _ _), respond_treq]
    rfl
  · cases n with
    | zero => exact ⟨0, by decide, rfl, by decide, .inl rfl⟩
    | succ n =>
      rw [observe_configure hs hm hv hin hreset]
      refine ⟨min (leadingOks (answersOf (es.take n)) + 1) 6, by omega, ?_, by omega, ?_⟩
      · rw [← configWrites_length v, ← List.take_eq_take_min]
      · obtain h | ⟨h, hend⟩ | ⟨r, hmem, hr, hend⟩ := configureEnd_cases 0 (answersOf (es.take n))
        · exact .inl h
        · exact .inr (.inl ⟨by omega, hend⟩)
        · exact .inr (.inr ⟨r, List.mem_of_mem_take (mem_answersOf.1 hmem), hr, hend⟩)

/-! ## The six writes (R132) -/

/-- The six writes in terms of the record's fields, as the table of R132 gives them. -/
theorem configWrites_eq_of_validate {c : DeviceConfig} {v : ValidConfig} (hv : validate c = .ok v) :
    configWrites v =
      [.write c.address 0x01#8 (0b000#3 ++ fqCode v.faultQueueLength ++ BitVec.extractLsb' 0 1 c.alertPolarity
          ++ BitVec.extractLsb' 0 1 c.alertMode ++ BitVec.extractLsb' 0 1 c.operatingMode),
        .write c.address 0x02#8 (BitVec.extractLsb' 1 8 c.hysteresis),
        .write c.address 0x02#8 (BitVec.extractLsb' 0 1 c.hysteresis ++ 0#7),
        .write c.address 0x03#8 (BitVec.extractLsb' 1 8 c.overtemperatureThreshold),
        .write c.address 0x03#8 (BitVec.extractLsb' 0 1 c.overtemperatureThreshold ++ 0#7),
        .write c.address 0x04#8 (0b000#3 ++ BitVec.extractLsb' 0 5 c.idleTimeout)] := by
  obtain ⟨haddr, -, hhyst, hos, hidle, -, hpol, hmode, hop⟩ := validate_ok_fields hv
  rw [alertPolarity_bitZero hpol, alertMode_bitZero hmode, operatingMode_bitZero hop, ← configImageIn_eq_fields fqCode v,
    ← msbOf_limitImage, ← lsbOf_limitImage, ← msbOf_limitImage, ← lsbOf_limitImage, ← idleImage_eq_append, ← haddr,
    ← hhyst, ← hos, ← hidle]
  rfl

/-- Settles O33: all six writes leave, and the table of R132 says what they are. -/
theorem configureIssuesSixWritesInOrder : Obligations.ConfigureIssuesSixWritesInOrder := by
  intro s m c v as rest hs hm hv hlen hok hin
  obtain ⟨-, -, -, -, -, hfq, -⟩ := validate_ok_fields hv
  refine ⟨v.faultQueueLength, hfq, ?_⟩
  rw [observe_configure_of_oks hs hm hv hlen hok hin, configWrites_eq_of_validate hv]

/-! ## READ_TEMP -/

/-- READ_TEMP at an idle block lets the read leave, whatever its address and timeout are (R141). -/
theorem exec_readTemp_of_idle (a : Byte) (tmo : BitVec Config.timeoutW) {s : State} (hs : s.seq = .idle) :
    exec (.readTemp a tmo) s = .next (s.emit (.read a 0x00#8 tmo) .rdWait) :=
  congrArg Host.Outcome.next (whenIdle_of_idle _ hs)

/-- Settles O37: the read is what `exec` emits. -/
theorem readTempIssuesTheRead : Obligations.ReadTempIssuesTheRead := by
  intro a tmo s hs
  rw [exec_readTemp_of_idle a tmo hs]
  exact issues_emit s _ _

/-- Until a reset, no transport request follows the read: a request presented meanwhile is turned away, and the answer to the
read ends the operation. -/
theorem observe_rdWait_requests {s : State} {es : List Stimulus} (hs : s.seq = .rdWait) (hin : s.inputs = es)
    (hreset : Stimulus.reset ∉ es) (n : Nat) : (observe n s).1 = [] := by
  induction es generalizing s n with
  | nil => rw [observe_of_inputs_nil hin]
  | cons e es ih =>
    cases n with
    | zero => rfl
    | succ n =>
      have hbusy : s.seq ≠ .idle := by simp [hs]
      cases e with
      | request m =>
        rw [observe_of_request_in_flight hbusy hin]
        exact ih (s := { s with inputs := es }) hs rfl (fun h => hreset (List.mem_cons_of_mem _ h)) n
      | answer r =>
        cases hr : r.ok with
        | false => rw [observe_succ_of_rsp (step_of_failed_answer hbusy hr hin) (respond_rsp _ _)]; rfl
        | true => rw [observe_succ_of_rsp (step_of_read_answered hs hr hin) (respond_rsp _ _)]; rfl
      | reset => exact absurd List.mem_cons_self hreset

/-- Settles O38: the accepting step issues the read, and no later step issues a request. -/
theorem readTempEmitsExactlyOneRead : Obligations.ReadTempEmitsExactlyOneRead := by
  intro s m a tmo es n hs hm hin hreset hn
  obtain ⟨n, rfl⟩ := Nat.exists_eq_add_one_of_ne_zero hn.ne'
  have hstep := step_of_request hin
  rw [hm, exec_readTemp_of_idle a tmo (s := { s with inputs := es }) hs] at hstep
  have hlater := observe_rdWait_requests (s := State.emit (.read a 0x00#8 tmo) .rdWait { s with inputs := es }) rfl rfl
    hreset n
  rw [observe_succ_of_no_rsp hstep (emit_rsp _ _ _), hlater]
  exact ⟨rfl, rfl⟩

/-- Settles O40: a failed answer ends READ_TEMP, and the ports of an IoError carry no result. -/
theorem failedReadHasNoTemperature : Obligations.FailedReadHasNoTemperature := by
  intro s r rest hs hr hin
  refine ⟨?_, fun u => ⟨rfl, rfl⟩⟩
  rw [step_of_failed_answer (by simp [hs]) hr hin]
  exact responds_respond { s with inputs := rest } _

end Sys2Proof.Machine
end

section
/-! PROOFS. The two errors (60_exceptions.md): what a block must have taken in the step that gives one (R150 to R155), and
that no error and no operation stops the machine (R159, R162). -/

namespace Sys2Proof.Machine

/-- A reset gives no response (R170). -/
theorem step_rsp_of_reset {s t : State} {rest : List Stimulus} (hin : s.inputs = .reset :: rest) (h : step s = .next t) :
    t.rsp = none := by
  obtain rfl := Host.Outcome.next.inj ((step_of_reset hin).symm.trans h)
  rfl

/-! ## ConfigError (R150, R153) -/

/-- Behind a gate whose continuation gives no ConfigError, one comes from the gate alone, with the validator's own verdict. -/
theorem validate_of_gated_configError {c : DeviceConfig} {k : ValidConfig → State → State} {u : State} {f : Field}
    {viol : BitVec 5} (hk : ∀ v, (k v u).rsp ≠ some (.configError f viol))
    (hr : (State.gated c k u).rsp = some (.configError f viol)) : validate c = .violation f viol := by
  cases hv : validate c with
  | ok v =>
    rw [gated_of_ok k u hv] at hr
    exact absurd hr (hk v)
  | violation f' viol' =>
    rw [gated_of_violation k u hv] at hr
    obtain ⟨rfl, rfl⟩ := Rsp.configError.inj (Option.some.inj hr)
    rfl

/-- A meaning that gives a ConfigError is that of a format-C operation, at an idle block, on a record that fails. -/
theorem exec_configError {i : Instr} {u t : State} {f : Field} {viol : BitVec 5} (h : exec i u = .next t)
    (hr : t.rsp = some (.configError f viol)) :
    u.seq = .idle ∧ ∃ c, validate c = .violation f viol ∧
      i ∈ [Instr.validate c, .encCfg c, .encHyst c, .encOs c, .encIdle c, .configure c] := by
  by_cases hs : u.seq = .idle
  · have gate : ∀ (c : DeviceConfig) (k : ValidConfig → State → State),
        exec i u = .next (u.whenIdle (State.gated c k)) → (∀ v, (k v u).rsp ≠ some (.configError f viol)) →
        validate c = .violation f viol := by
      intro c k hexec hk
      obtain rfl := Host.Outcome.next.inj (h.symm.trans hexec)
      rw [whenIdle_of_idle _ hs] at hr
      exact validate_of_gated_configError hk hr
    refine ⟨hs, ?_⟩
    cases i with
    | validate c | encCfg c | encHyst c | encOs c | encIdle c | configure c =>
      exact ⟨c, gate c _ rfl (by simp), by simp⟩
    | decTemp msb lsb =>
      obtain rfl := Host.Outcome.next.inj (h.symm.trans (exec_decTemp_of_idle hs msb lsb))
      cases hr
    | readTemp a tmo =>
      obtain rfl := Host.Outcome.next.inj (h.symm.trans (exec_readTemp_of_idle a tmo hs))
      cases hr
  · obtain rfl := Host.Outcome.next.inj (h.symm.trans (exec_of_busy i hs))
    cases hr

/-- An answer of the transport never makes a ConfigError. -/
theorem takeAnswer_rsp_ne_configError (r : TRsp) (u : State) (f : Field) (viol : BitVec 5) :
    (u.takeAnswer r).rsp ≠ some (.configError f viol) := by
  intro hr
  obtain ⟨-, h⟩ | ⟨v, k, k', -, -, -, h⟩ | ⟨v, -, -, h⟩ | ⟨-, -, h⟩ | ⟨-, -, h⟩ := takeAnswer_cases r u <;>
    rw [h] at hr <;> cases hr

/-- Settles O42, by the event the step took: only a request can give a ConfigError. -/
theorem configErrorOnlyFromAnIllegalRecord : Obligations.ConfigErrorOnlyFromAnIllegalRecord := by
  intro s t f viol h hr
  obtain ⟨e, he⟩ := step_next_inputs h
  cases e with
  | request m =>
    obtain ⟨hs, c, hc, hm⟩ := exec_configError ((step_of_request he).symm.trans h) hr
    exact ⟨hs, m, c, he, hc, hm⟩
  | answer r =>
    have ht := Host.Outcome.next.inj ((step_of_answer he).symm.trans h)
    rw [← ht] at hr
    exact absurd hr (takeAnswer_rsp_ne_configError _ _ f viol)
  | reset => cases (step_rsp_of_reset he h).symm.trans hr

/-! ## IoError (R152, R154) -/

/-- No meaning makes an IoError: the step that accepts a request has no answer of the transport yet. -/
theorem exec_rsp_ne_ioError {i : Instr} {u t : State} (h : exec i u = .next t) (e : BitVec Config.ioErrW) :
    t.rsp ≠ some (.ioError e) := by
  intro hr
  obtain ⟨-, h'⟩ | ⟨-, res, h'⟩ | ⟨-, c, f, viol, -, h'⟩ | ⟨-, c, v, -, -, h'⟩ | ⟨-, a, tmo, -, h'⟩ := exec_cases i u <;>
    obtain rfl := Host.Outcome.next.inj (h.symm.trans h') <;> cases hr

/-- An answer that makes an IoError is a failed one to the operation in flight, and the payload is its own. -/
theorem takeAnswer_ioError {r : TRsp} {u : State} {e : BitVec Config.ioErrW}
    (hr : (u.takeAnswer r).rsp = some (.ioError e)) : u.seq ≠ .idle ∧ r.ok = false ∧ r.err = e := by
  obtain ⟨-, h⟩ | ⟨v, k, k', -, -, -, h⟩ | ⟨v, -, -, h⟩ | ⟨-, -, h⟩ | ⟨hu, hok, h⟩ := takeAnswer_cases r u <;>
    rw [h] at hr
  · cases hr
  · cases hr
  · cases hr
  · cases hr
  · exact ⟨hu, hok, Rsp.ioError.inj (Option.some.inj hr)⟩

/-- Only a step that takes a failed answer to the operation in flight gives an IoError. -/
theorem step_ioError {s t : State} {e : BitVec Config.ioErrW} (h : step s = .next t) (hr : t.rsp = some (.ioError e)) :
    s.seq ≠ .idle ∧ ∃ r : TRsp, s.inputs = .answer r :: t.inputs ∧ r.ok = false ∧ r.err = e := by
  obtain ⟨ev, hev⟩ := step_next_inputs h
  cases ev with
  | request m => exact absurd hr (exec_rsp_ne_ioError ((step_of_request hev).symm.trans h) e)
  | answer r =>
    have ht := Host.Outcome.next.inj ((step_of_answer hev).symm.trans h)
    rw [← ht] at hr
    obtain ⟨hs, hok, herr⟩ := takeAnswer_ioError hr
    exact ⟨hs, r, hev, hok, herr⟩
  | reset => cases (step_rsp_of_reset hev h).symm.trans hr

/-- Settles O41: the failed answer is the only source of an IoError, and it always gives one. -/
theorem ioErrorIsTheTransportsOwn : Obligations.IoErrorIsTheTransportsOwn := by
  refine ⟨fun _ _ _ => step_ioError, fun s r rest hs hr hin => ?_, fun _ _ => ⟨rfl, rfl⟩⟩
  rw [step_of_failed_answer hs hr hin]
  exact responds_respond { s with inputs := rest } _

/-! ## The machine stops for want of an event only (R159, R162) -/

/-- Settles O8: each event has a reaction in every state, and with no event left the step is a fault. -/
theorem stepStopsOnlyForWantOfAnEvent : Obligations.StepStopsOnlyForWantOfAnEvent := by
  intro s
  cases hin : s.inputs with
  | nil => simp [step_of_none hin]
  | cons e rest =>
    obtain ⟨k, -, hstep⟩ := step_readsSeqAlone e
    simp [hstep s rest hin]

end Sys2Proof.Machine
end

section
/-! PROOFS. Reset, and the answer that comes after it (70_reset_and_hazards.md, R170). -/

namespace Sys2Proof.Machine

/-- An idle block awaits no answer and discards the one it is given (R170). -/
theorem takeAnswer_of_idle {u : State} (r : TRsp) (hs : u.seq = .idle) : u.takeAnswer r = u.quiet := by
  rw [State.takeAnswer, State.takeAnswerIn, hs]

/-- An idle block that takes an answer goes quiet and stays as it was. -/
theorem step_of_answer_of_idle {s : State} {r : TRsp} {rest : List Stimulus} (hs : s.seq = .idle)
    (hin : s.inputs = .answer r :: rest) : step s = .next (State.quiet { s with inputs := rest }) :=
  (step_of_answer hin).trans (congrArg Host.Outcome.next (takeAnswer_of_idle r hs))

/-- Settles O11: the reset state is idle and silent whatever was in flight, and a late answer leaves the idle block quiet. -/
theorem resetAbandonsTheOperation : Obligations.ResetAbandonsTheOperation := by
  refine ⟨fun s rest hin => ?_, fun s r rest hs hin => ?_⟩
  · exact ⟨_, step_of_reset hin, resetBlock_seq _, resetBlock_rsp _, resetBlock_treq _, resetBlock_inputs _⟩
  · exact ⟨_, step_of_answer_of_idle hs hin, (quiet_seq _).trans hs, quiet_rsp _, quiet_treq _, quiet_inputs _⟩

end Sys2Proof.Machine
end
